-- ==== Sys2Proof/Word.lean ====
section
/-! DEFINITION. The words of the part's two serial lines. -/

namespace Sys2Proof

/-- One character on a line, and one frame byte (spec/00 "Numbers"). -/
abbrev Byte := BitVec 8
/-- A two-byte field, sent high byte first. -/
abbrev Word16 := BitVec 16
/-- A four-byte field, sent high byte first. -/
abbrev Word32 := BitVec 32

/-- An authority level 0..3; a greater number is less authority (spec/00 "Comparing levels"). -/
abbrev Level := Fin 4
/-- A feed gate setting, 0 closed to 31 full open (spec/00 "Units"). -/
abbrev Setting := Fin 32
/-- A hold of the vessel: hold number `h` is the index `h - 1`. -/
abbrev Hold := Fin 9
/-- An index of the head table (R81). -/
abbrev HeadIx := Fin 16
/-- An index of the zone table (R52). -/
abbrev ZoneIx := Fin 64

end Sys2Proof
end

