-- ==== Sys2Proof/Config.lean ====
section
/-! DEFINITION. The part's fixed sizes and limits, and its one free choice. -/

namespace Sys2Proof.Config

/-- Places of the upstream output queue (R11). -/
def outputPlaces : Nat := 16
/-- Entries of the relay queue (R37). -/
def relayPlaces : Nat := 8
/-- Records of the plan (R120). -/
def planRecords : Nat := 32
/-- Private levels of a step stack (R143). -/
def privateLevels : Nat := 3
/-- Longest payload of a frame (chapter 1). -/
def maxPayload : Nat := 48
/-- The frame time limit in ms (R3). -/
def frameLimitMs : Nat := 10
/-- Ticks of 1 ms in a clock minute (R161). -/
def ticksPerMinute : Nat := 60000

/-- Which of several timers that fall due at the same tick is taken first (log 5). The spec allows either order
(R88, R89), so this has no body: the `n`-th such choice takes the entry `dueChoice n` of the list of due timers,
counted round. -/
opaque dueChoice : Nat → Nat

end Sys2Proof.Config
end

