-- ==== Sys2Proof/Syntax.lean ====
section
/-! DEFINITION. The commands the part takes: one constructor per row of spec/opcode_table.json. -/

namespace Sys2Proof

/-- The two spouts; codes 0 and 1 (R193). -/
inductive Spout | a | b
  deriving DecidableEq, Repr

/-- The two serial lines (R3). -/
inductive Line | supervisor | field
  deriving DecidableEq, Repr

/-- A loader link frame without its start byte, its length byte (the payload's length) and its check word (chapter 1). -/
structure Frame where
  dest    : Byte
  source  : Byte
  kind    : Byte
  tag     : Byte
  flags   : Byte
  payload : List Byte
  deriving DecidableEq, Repr

/-- The payload of a MOVE frame (chapter 1, "Frame kinds and their payloads"). -/
structure MoveFields where
  spout  : Spout
  target : Byte
  route  : Byte
  level  : Level
  rail   : Word32
  slew   : Word16
  reach  : Word16
  lower  : Word16
  deriving DecidableEq, Repr

/-- The payload of a GATE frame. -/
structure GateFields where
  spout   : Spout
  level   : Level
  setting : Setting
  deriving DecidableEq, Repr

/-- The four axis ranges of a zone (R52). Slew is signed. -/
structure Box where
  railMin  : Word32
  railMax  : Word32
  slewMin  : Word16
  slewMax  : Word16
  reachMin : Word16
  reachMax : Word16
  lowerMin : Word16
  lowerMax : Word16
  deriving DecidableEq, Repr

/-- The fields of LOAD_ZONE (R195). -/
structure ZoneFields where
  index    : Byte
  present  : Bool
  zoneType : Byte
  level    : Byte
  hold     : Byte
  box      : Box
  fromZone : Byte
  toZone   : Byte
  deriving DecidableEq, Repr

/-- The fields of LOAD_HEAD (R195); `spare` is byte 13, which the part does not examine. -/
structure HeadFields where
  index       : Byte
  present     : Bool
  station     : Byte
  hold        : Byte
  watch       : Word16
  alarm       : Word16
  trip        : Word16
  hysteresis  : Word16
  persistence : Byte
  spare       : Byte
  deriving DecidableEq, Repr

/-- The fields of APPEND_STEP (R198). -/
structure StepFields where
  spout            : Byte
  hold             : Byte
  mode             : Byte
  target           : Word16
  gateSetting      : Byte
  topOffThreshold  : Word16
  topOffSetting    : Byte
  openBy           : Byte
  after            : Word16
  deriving DecidableEq, Repr

/-- The fields of TRIM_POUR (R198). -/
structure TrimFields where
  spout       : Byte
  hold        : Byte
  target      : Word16
  gateSetting : Byte
  openBy      : Byte
  deriving DecidableEq, Repr

/-- The commands. A request carries the tag of its supervisor frame; operands of a request are its fields as the
frame carries them (R194 to R199), those the fit check of R191 or R8 bounds already bounded. -/
inductive Instr
  -- power, restart and key inputs
  | powerOn (strapClk strapBaud : Bool)
  | restartInput
  | restartInputRelease
  | maintenanceKeyInactive
  | maintenanceKeyActive
  -- the supervisor line
  | supervisorFrame (f : Frame) (check : Word16)
  | supervisorFrameLengthDiscard
  | supervisorFrameTimeLimit
  | upstreamFrameStart
  | upstreamFrameSent
  -- relay frames
  | move (tag dest : Byte) (m : MoveFields)
  | gate (tag dest : Byte) (g : GateFields)
  | plain (tag dest : Byte) (data : List Byte)
  -- run control and status
  | getStatus (tag : Byte)
  | run (tag : Byte)
  | halt (tag : Byte)
  | resume (tag : Byte)
  | restart (tag : Byte)
  | setConsoleLevel (tag level : Byte)
  | setClock (tag : Byte) (minutes : Word32)
  -- configuration
  | loadStation (tag address : Byte) (present : Bool) (kind unit relayClass : Byte)
  | loadZone (tag : Byte) (z : ZoneFields)
  | setZoneLimit (tag limit : Byte)
  | loadHead (tag : Byte) (h : HeadFields)
  | setTiming (tag : Byte) (reply position scale cycle : Word16)
  | setLimits (tag spouts alarmCap : Byte) (maxDelta : Word16)
  -- reading tables and heads
  | readStation (tag address : Byte)
  | readZone (tag index : Byte)
  | queryZone (tag index level : Byte)
  | readHead (tag head : Byte)
  -- travel and dust
  | setFreeboard (tag hold : Byte) (offset : Word16)
  | sampleNow (tag : Byte)
  | ackTrip (tag head : Byte)
  -- the plan
  | appendStep (tag : Byte) (f : StepFields)
  | cancelStep (tag : Byte) (number : Word16)
  | endStep (tag : Byte) (number : Word16)
  | purgeSteps (tag : Byte)
  | readStep (tag : Byte) (number : Word16)
  | readPlan (tag start : Byte)
  | trimPour (tag : Byte) (f : TrimFields)
  -- bills
  | openBill (tag : Byte) (number : Word16)
  | closeBill (tag : Byte)
  | readBillOpen (tag : Byte) (number : Word16)
  | readBillNext (tag : Byte)
  | readBillEnd (tag : Byte)
  | issueBill (tag : Byte) (number : Word16)
  | clearUnbilled (tag : Byte)
  -- notices
  | nextNotice (tag : Byte)
  | clearNotices (tag : Byte) (names : Word16)
  | setNoticeMask (tag : Byte) (names : Word16)
  -- the field line and the timers
  | fieldFrameReceived (f : Frame) (check : Word16)
  | fieldFrameLengthDiscard
  | fieldFrameTimeLimit
  | fieldFrameSent
  | replyTimeout
  | positionTimerExpiry
  | scaleTimerExpiry
  | cycleTimerExpiry
  | clockMinute
  | startByteReceived (line : Line)
  | fieldCheckWordMismatch
  deriving DecidableEq, Repr

/-- The result and reason codes of R192. -/
inductive Code
  | done | latched | endMark | none
  | badFrame | badDest | relayFull | tagInUse | noStation | wrongKind | relayBlocked | noReply | targetDropped
  | notRunning | halted | notConfig | mapIncomplete | gatesNotClosed | badValue | busy | keyRequired
  | spoutUnknown | nullZone | zoneLimit | zoneType | zoneLevel | zoneAbsent | spoutLost | outOfZone | spoutMoving
  | gateOpen | stepActive | routeNone | routeLimit | routeType | routeLevel | routeAbsent | routeMismatch
  | dustTrip | zoneClaimed | gateUnsure | noStep | pourBlocked | tripPersists
  | planFull | noSuchStep | stepSuspended | stepEnded | notActive | trimLatched
  | billOpen | dupBill | billTableFull | noBill | cursorBusy | noCursor | notRead
  deriving DecidableEq, Repr

end Sys2Proof
end

