-- ==== Sys2Proof/WellFormed.lean ====
section
/-! DEFINITION. Which commands a line can carry at all. -/

namespace Sys2Proof

/-- A frame's payload has at most 48 bytes (chapter 1). -/
def Frame.wf (f : Frame) : Bool := f.payload.length ≤ Config.maxPayload

/-- An address of a field station, 1..60 (R5). -/
def fieldAddress (d : Byte) : Bool := 1 ≤ d.toNat && d.toNat ≤ 60

/-- A command is well formed when its frame has at most 48 payload bytes and a relay frame names a field station.
Every other operand is bounded by its type; a value out of its range is a request the part refuses. -/
def Instr.wf : Instr → Bool
  | .supervisorFrame f _ => f.wf
  | .fieldFrameReceived f _ => f.wf
  | .move _ dest _ => fieldAddress dest
  | .gate _ dest _ => fieldAddress dest
  | .plain _ dest data => fieldAddress dest && data.length ≤ Config.maxPayload
  | .powerOn _ _ | .restartInput | .restartInputRelease | .maintenanceKeyInactive | .maintenanceKeyActive
  | .supervisorFrameLengthDiscard | .supervisorFrameTimeLimit | .upstreamFrameStart | .upstreamFrameSent
  | .getStatus _ | .run _ | .halt _ | .resume _ | .restart _ | .setConsoleLevel _ _ | .setClock _ _
  | .loadStation _ _ _ _ _ _ | .loadZone _ _ | .setZoneLimit _ _ | .loadHead _ _ | .setTiming _ _ _ _ _
  | .setLimits _ _ _ _ | .readStation _ _ | .readZone _ _ | .queryZone _ _ _ | .readHead _ _
  | .setFreeboard _ _ _ | .sampleNow _ | .ackTrip _ _ | .appendStep _ _ | .cancelStep _ _ | .endStep _ _
  | .purgeSteps _ | .readStep _ _ | .readPlan _ _ | .trimPour _ _ | .openBill _ _ | .closeBill _
  | .readBillOpen _ _ | .readBillNext _ | .readBillEnd _ | .issueBill _ _ | .clearUnbilled _
  | .nextNotice _ | .clearNotices _ _ | .setNoticeMask _ _
  | .fieldFrameLengthDiscard | .fieldFrameTimeLimit | .fieldFrameSent | .replyTimeout | .positionTimerExpiry
  | .scaleTimerExpiry | .cycleTimerExpiry | .clockMinute | .startByteReceived _ | .fieldCheckWordMismatch => true

end Sys2Proof
end

