-- ==== Sys2Proof/Decode.lean ====
section
/-! DEFINITION. Reading a supervisor frame (R2, R8, R9, R191, R193 to R199) and writing the frame that carries a request. -/

namespace Sys2Proof

/-! ## Byte order: high byte first (spec/00, R193) -/

def bytes16 (w : Word16) : List Byte := [w.extractLsb' 8 8, w.extractLsb' 0 8]

def bytes32 (w : Word32) : List Byte :=
  [w.extractLsb' 24 8, w.extractLsb' 16 8, w.extractLsb' 8 8, w.extractLsb' 0 8]

def word16 (h l : Byte) : Word16 := h ++ l

def word32 (b3 b2 b1 b0 : Byte) : Word32 := word16 b3 b2 ++ word16 b1 b0

/-- A number below 256 as a byte. -/
def byteOfNat (n : Nat) : Byte := BitVec.ofNat 8 n

/-- A yes/no byte: 0 no, 1 yes (R193). -/
def yesNo (b : Bool) : Byte := if b then 1 else 0

/-! ## The check word (R2) -/

/-- One data bit enters the CRC register: shift left by one, and exclusive-or 0x1021 where the bit shifted out and
the data bit differ. -/
def crcBit (reg : Word16) (bit : Bool) : Word16 :=
  if reg.msb != bit then (reg <<< 1) ^^^ 0x1021#16 else reg <<< 1

/-- One byte enters the register, most significant bit first. -/
def crcByte (reg : Word16) (b : Byte) : Word16 :=
  [7, 6, 5, 4, 3, 2, 1, 0].foldl (fun r i => crcBit r (b.getLsbD i)) reg

/-- The CRC of a sequence of bytes, from 0xFFFF, with no final inversion. -/
def crc16 (bs : List Byte) : Word16 := bs.foldl crcByte 0xFFFF#16

/-- The bytes the check word runs over: destination to the last payload byte. -/
def Frame.body (f : Frame) : List Byte :=
  [f.dest, f.source, f.kind, f.tag, f.flags, byteOfNat f.payload.length] ++ f.payload

/-- The check word of a frame. -/
def Frame.check (f : Frame) : Word16 := crc16 f.body

/-- The bytes of a frame on the line, from the start byte to the check word's low byte. -/
def Frame.wire (f : Frame) : List Byte := 0xA5#8 :: (f.body ++ bytes16 f.check)

/-! ## Codes -/

/-- Frame kind codes (chapter 1, "Frame kinds and their payloads"). -/
def kindMgmt : Byte := 0x10
def kindMove : Byte := 0x20
def kindGate : Byte := 0x21
def kindPlain : Byte := 0x22
def kindReply : Byte := 0x90
def kindRelayed : Byte := 0xA2
def kindRefusal : Byte := 0xAF
def kindPollPos : Byte := 0x30
def kindPollDust : Byte := 0x31
def kindPollScale : Byte := 0x32
def kindOrderStop : Byte := 0x38
def kindOrderGate : Byte := 0x39
def kindAllStop : Byte := 0x3F
def kindAnswer : Byte := 0xC0

/-- The numbering of results and reasons (R192). -/
def Code.byte : Code → Byte
  | .done => 0x00 | .latched => 0x01 | .endMark => 0x02 | .none => 0x03
  | .badFrame => 0x10 | .badDest => 0x11 | .relayFull => 0x12 | .tagInUse => 0x13 | .noStation => 0x14
  | .wrongKind => 0x15 | .relayBlocked => 0x16 | .noReply => 0x17 | .targetDropped => 0x18
  | .notRunning => 0x20 | .halted => 0x21 | .notConfig => 0x22 | .mapIncomplete => 0x23
  | .gatesNotClosed => 0x24 | .badValue => 0x25 | .busy => 0x26 | .keyRequired => 0x27
  | .spoutUnknown => 0x30 | .nullZone => 0x31 | .zoneLimit => 0x32 | .zoneType => 0x33 | .zoneLevel => 0x34
  | .zoneAbsent => 0x35 | .spoutLost => 0x36 | .outOfZone => 0x37 | .spoutMoving => 0x38 | .gateOpen => 0x39
  | .stepActive => 0x3A | .routeNone => 0x3B | .routeLimit => 0x3C | .routeType => 0x3D | .routeLevel => 0x3E
  | .routeAbsent => 0x3F | .routeMismatch => 0x40 | .dustTrip => 0x41 | .zoneClaimed => 0x42
  | .gateUnsure => 0x48 | .noStep => 0x49 | .pourBlocked => 0x4A | .tripPersists => 0x4B
  | .planFull => 0x50 | .noSuchStep => 0x51 | .stepSuspended => 0x52 | .stepEnded => 0x53 | .notActive => 0x54
  | .trimLatched => 0x55
  | .billOpen => 0x60 | .dupBill => 0x61 | .billTableFull => 0x62 | .noBill => 0x63 | .cursorBusy => 0x64
  | .noCursor => 0x65 | .notRead => 0x66

/-- Spout codes: 0 A, 1 B (R193). -/
def Spout.byte : Spout → Byte
  | .a => 0
  | .b => 1

def spoutOfByte (b : Byte) : Option Spout :=
  if b = 0 then some .a else if b = 1 then some .b else none

def levelOfByte (b : Byte) : Option Level :=
  if h : b.toNat < 4 then some ⟨b.toNat, h⟩ else none

def settingOfByte (b : Byte) : Option Setting :=
  if h : b.toNat < 32 then some ⟨b.toNat, h⟩ else none

def yesNoOfByte (b : Byte) : Option Bool :=
  if b = 0 then some false else if b = 1 then some true else none

def levelByte (l : Level) : Byte := byteOfNat l.val

def settingByte (x : Setting) : Byte := byteOfNat x.val

/-! ## Payloads of relay frames -/

def MoveFields.bytes (m : MoveFields) : List Byte :=
  [m.spout.byte, m.target, m.route, levelByte m.level] ++ bytes32 m.rail ++ bytes16 m.slew ++ bytes16 m.reach
    ++ bytes16 m.lower

def GateFields.bytes (g : GateFields) : List Byte := [g.spout.byte, levelByte g.level, settingByte g.setting]

/-- A MOVE payload that fits (R8): 14 bytes, the spout byte at most 1, the level at most 3. -/
def readMove : List Byte → Option MoveFields
  | [sp, tg, rt, lv, r3, r2, r1, r0, s1, s0, e1, e0, l1, l0] =>
    match spoutOfByte sp, levelOfByte lv with
    | some spout, some level =>
      some { spout, target := tg, route := rt, level, rail := word32 r3 r2 r1 r0, slew := word16 s1 s0,
             reach := word16 e1 e0, lower := word16 l1 l0 }
    | _, _ => none
  | _ => none

/-- A GATE payload that fits (R8): 3 bytes, spout at most 1, level at most 3, setting at most 31. -/
def readGate : List Byte → Option GateFields
  | [sp, lv, st] =>
    match spoutOfByte sp, levelOfByte lv, settingOfByte st with
    | some spout, some level, some setting => some { spout, level, setting }
    | _, _, _ => none
  | _ => none

/-! ## Management requests: the fit checks of R191 and the layouts of R194 to R199 -/

def noFields (c : Instr) : List Byte → Option Instr
  | [] => some c
  | _ => none

def oneByte (c : Byte → Instr) : List Byte → Option Instr
  | [x] => some (c x)
  | _ => none

def twoBytes (c : Byte → Byte → Instr) : List Byte → Option Instr
  | [x, y] => some (c x y)
  | _ => none

def oneWord (c : Word16 → Instr) : List Byte → Option Instr
  | [x, y] => some (c (word16 x y))
  | _ => none

def readSetClock (tag : Byte) : List Byte → Option Instr
  | [a, b, c, d] => some (.setClock tag (word32 a b c d))
  | _ => none

def readLoadStation (tag : Byte) : List Byte → Option Instr
  | [address, p, kind, unit, cls] => (yesNoOfByte p).map fun present => .loadStation tag address present kind unit cls
  | _ => none

def readLoadZone (tag : Byte) : List Byte → Option Instr
  | [i, p, ty, lv, h, a3, a2, a1, a0, b3, b2, b1, b0, c1, c0, d1, d0, e1, e0, f1, f0, g1, g0, k1, k0, fz, tz] =>
    (yesNoOfByte p).map fun present =>
      .loadZone tag
        { index := i, present, zoneType := ty, level := lv, hold := h,
          box := { railMin := word32 a3 a2 a1 a0, railMax := word32 b3 b2 b1 b0, slewMin := word16 c1 c0,
                   slewMax := word16 d1 d0, reachMin := word16 e1 e0, reachMax := word16 f1 f0,
                   lowerMin := word16 g1 g0, lowerMax := word16 k1 k0 },
          fromZone := fz, toZone := tz }
  | _ => none

def readLoadHead (tag : Byte) : List Byte → Option Instr
  | [i, p, st, h, w1, w0, a1, a0, t1, t0, y1, y0, n, sp] =>
    (yesNoOfByte p).map fun present =>
      .loadHead tag
        { index := i, present, station := st, hold := h, watch := word16 w1 w0, alarm := word16 a1 a0,
          trip := word16 t1 t0, hysteresis := word16 y1 y0, persistence := n, spare := sp }
  | _ => none

def readSetTiming (tag : Byte) : List Byte → Option Instr
  | [a1, a0, b1, b0, c1, c0, d1, d0] =>
    some (.setTiming tag (word16 a1 a0) (word16 b1 b0) (word16 c1 c0) (word16 d1 d0))
  | _ => none

def readSetLimits (tag : Byte) : List Byte → Option Instr
  | [n, c, d1, d0] => some (.setLimits tag n c (word16 d1 d0))
  | _ => none

def readSetFreeboard (tag : Byte) : List Byte → Option Instr
  | [h, o1, o0] => some (.setFreeboard tag h (word16 o1 o0))
  | _ => none

def readAppendStep (tag : Byte) : List Byte → Option Instr
  | [sp, h, m, t1, t0, g, h1, h0, x, o, a1, a0] =>
    some (.appendStep tag
      { spout := sp, hold := h, mode := m, target := word16 t1 t0, gateSetting := g, topOffThreshold := word16 h1 h0,
        topOffSetting := x, openBy := o, after := word16 a1 a0 })
  | _ => none

def readTrimPour (tag : Byte) : List Byte → Option Instr
  | [sp, h, t1, t0, g, o] =>
    some (.trimPour tag { spout := sp, hold := h, target := word16 t1 t0, gateSetting := g, openBy := o })
  | _ => none

/-- The request a MGMT payload carries: its request code, then its fields. `none` where the code is not in the
catalogue, the length is not the layout's or a yes/no byte is above 1 (R191). -/
def readRequest (tag code : Byte) (fields : List Byte) : Option Instr :=
  match code.toNat with
  | 0x01 => noFields (.getStatus tag) fields
  | 0x02 => noFields (.run tag) fields
  | 0x03 => noFields (.halt tag) fields
  | 0x04 => noFields (.resume tag) fields
  | 0x05 => noFields (.restart tag) fields
  | 0x06 => oneByte (.setConsoleLevel tag) fields
  | 0x07 => readSetClock tag fields
  | 0x10 => readLoadStation tag fields
  | 0x11 => readLoadZone tag fields
  | 0x12 => oneByte (.setZoneLimit tag) fields
  | 0x13 => readLoadHead tag fields
  | 0x14 => readSetTiming tag fields
  | 0x15 => readSetLimits tag fields
  | 0x18 => oneByte (.readStation tag) fields
  | 0x19 => oneByte (.readZone tag) fields
  | 0x1A => twoBytes (.queryZone tag) fields
  | 0x1B => oneByte (.readHead tag) fields
  | 0x20 => readSetFreeboard tag fields
  | 0x28 => noFields (.sampleNow tag) fields
  | 0x29 => oneByte (.ackTrip tag) fields
  | 0x30 => readAppendStep tag fields
  | 0x31 => oneWord (.cancelStep tag) fields
  | 0x32 => oneWord (.endStep tag) fields
  | 0x33 => noFields (.purgeSteps tag) fields
  | 0x34 => oneWord (.readStep tag) fields
  | 0x35 => oneByte (.readPlan tag) fields
  | 0x36 => readTrimPour tag fields
  | 0x40 => oneWord (.openBill tag) fields
  | 0x41 => noFields (.closeBill tag) fields
  | 0x42 => oneWord (.readBillOpen tag) fields
  | 0x43 => noFields (.readBillNext tag) fields
  | 0x44 => noFields (.readBillEnd tag) fields
  | 0x45 => oneWord (.issueBill tag) fields
  | 0x46 => noFields (.clearUnbilled tag) fields
  | 0x50 => noFields (.nextNotice tag) fields
  | 0x51 => oneWord (.clearNotices tag) fields
  | 0x52 => oneWord (.setNoticeMask tag) fields
  | _ => none

/-! ## Checking and routing a taken frame (R8, R9) -/

/-- What becomes of a taken frame: refused by R8, answered BAD_VALUE by R191, or routed as a request. -/
inductive Route
  | refuse (reason : Code) (subject : Byte)
  | badValue
  | command (c : Instr)
  deriving DecidableEq, Repr

/-- The payload of a frame whose kind and destination have passed checks 1 to 4 (R8 check 5, R9). -/
def routePayload (f : Frame) : Route :=
  if f.kind = kindMgmt then
    match f.payload with
    | [] => .refuse .badFrame 3
    | code :: fields =>
      match readRequest f.tag code fields with
      | some c => .command c
      | none => .badValue
  else if f.kind = kindMove then
    match readMove f.payload with
    | some m => .command (.move f.tag f.dest m)
    | none => .refuse .badFrame 3
  else if f.kind = kindGate then
    match readGate f.payload with
    | some g => .command (.gate f.tag f.dest g)
    | none => .refuse .badFrame 3
  else .command (.plain f.tag f.dest f.payload)

/-- The checks of R8 in order, then the routing of R9. -/
def routeFrame (f : Frame) : Route :=
  if f.source ≠ 62 then .refuse .badFrame 1
  else if ¬ (f.kind = kindMgmt ∨ f.kind = kindMove ∨ f.kind = kindGate ∨ f.kind = kindPlain) then .refuse .badFrame 2
  else if 61 ≤ f.dest.toNat then .refuse .badDest f.dest
  else if (f.kind = kindMgmt ∧ f.dest ≠ 0) ∨ (f.kind ≠ kindMgmt ∧ f.dest = 0) then .refuse .badDest f.dest
  else routePayload f

/-! ## Writing the frame of a request -/

def ZoneFields.bytes (z : ZoneFields) : List Byte :=
  [z.index, yesNo z.present, z.zoneType, z.level, z.hold] ++ bytes32 z.box.railMin ++ bytes32 z.box.railMax
    ++ bytes16 z.box.slewMin ++ bytes16 z.box.slewMax ++ bytes16 z.box.reachMin ++ bytes16 z.box.reachMax
    ++ bytes16 z.box.lowerMin ++ bytes16 z.box.lowerMax ++ [z.fromZone, z.toZone]

def HeadFields.bytes (h : HeadFields) : List Byte :=
  [h.index, yesNo h.present, h.station, h.hold] ++ bytes16 h.watch ++ bytes16 h.alarm ++ bytes16 h.trip
    ++ bytes16 h.hysteresis ++ [h.persistence, h.spare]

def StepFields.bytes (f : StepFields) : List Byte :=
  [f.spout, f.hold, f.mode] ++ bytes16 f.target ++ [f.gateSetting] ++ bytes16 f.topOffThreshold
    ++ [f.topOffSetting, f.openBy] ++ bytes16 f.after

def TrimFields.bytes (f : TrimFields) : List Byte :=
  [f.spout, f.hold] ++ bytes16 f.target ++ [f.gateSetting, f.openBy]

/-- A frame the supervisor sends: source 62, flags 0. -/
def supFrame (dest kind tag : Byte) (payload : List Byte) : Frame :=
  { dest, source := 62, kind, tag, flags := 0, payload }

/-- The supervisor frame that carries a request; `none` for a command that is no request. -/
def frameOf : Instr → Option Frame
  | .move t d m => some (supFrame d kindMove t m.bytes)
  | .gate t d g => some (supFrame d kindGate t g.bytes)
  | .plain t d data => some (supFrame d kindPlain t data)
  | .getStatus t => some (supFrame 0 kindMgmt t [0x01])
  | .run t => some (supFrame 0 kindMgmt t [0x02])
  | .halt t => some (supFrame 0 kindMgmt t [0x03])
  | .resume t => some (supFrame 0 kindMgmt t [0x04])
  | .restart t => some (supFrame 0 kindMgmt t [0x05])
  | .setConsoleLevel t l => some (supFrame 0 kindMgmt t [0x06, l])
  | .setClock t m => some (supFrame 0 kindMgmt t (0x07 :: bytes32 m))
  | .loadStation t a p k u c => some (supFrame 0 kindMgmt t [0x10, a, yesNo p, k, u, c])
  | .loadZone t z => some (supFrame 0 kindMgmt t (0x11 :: z.bytes))
  | .setZoneLimit t l => some (supFrame 0 kindMgmt t [0x12, l])
  | .loadHead t h => some (supFrame 0 kindMgmt t (0x13 :: h.bytes))
  | .setTiming t a b c d => some (supFrame 0 kindMgmt t (0x14 :: (bytes16 a ++ bytes16 b ++ bytes16 c ++ bytes16 d)))
  | .setLimits t n c d => some (supFrame 0 kindMgmt t ([0x15, n, c] ++ bytes16 d))
  | .readStation t a => some (supFrame 0 kindMgmt t [0x18, a])
  | .readZone t i => some (supFrame 0 kindMgmt t [0x19, i])
  | .queryZone t i l => some (supFrame 0 kindMgmt t [0x1A, i, l])
  | .readHead t i => some (supFrame 0 kindMgmt t [0x1B, i])
  | .setFreeboard t h o => some (supFrame 0 kindMgmt t ([0x20, h] ++ bytes16 o))
  | .sampleNow t => some (supFrame 0 kindMgmt t [0x28])
  | .ackTrip t i => some (supFrame 0 kindMgmt t [0x29, i])
  | .appendStep t f => some (supFrame 0 kindMgmt t (0x30 :: f.bytes))
  | .cancelStep t n => some (supFrame 0 kindMgmt t (0x31 :: bytes16 n))
  | .endStep t n => some (supFrame 0 kindMgmt t (0x32 :: bytes16 n))
  | .purgeSteps t => some (supFrame 0 kindMgmt t [0x33])
  | .readStep t n => some (supFrame 0 kindMgmt t (0x34 :: bytes16 n))
  | .readPlan t i => some (supFrame 0 kindMgmt t [0x35, i])
  | .trimPour t f => some (supFrame 0 kindMgmt t (0x36 :: f.bytes))
  | .openBill t n => some (supFrame 0 kindMgmt t (0x40 :: bytes16 n))
  | .closeBill t => some (supFrame 0 kindMgmt t [0x41])
  | .readBillOpen t n => some (supFrame 0 kindMgmt t (0x42 :: bytes16 n))
  | .readBillNext t => some (supFrame 0 kindMgmt t [0x43])
  | .readBillEnd t => some (supFrame 0 kindMgmt t [0x44])
  | .issueBill t n => some (supFrame 0 kindMgmt t (0x45 :: bytes16 n))
  | .clearUnbilled t => some (supFrame 0 kindMgmt t [0x46])
  | .nextNotice t => some (supFrame 0 kindMgmt t [0x50])
  | .clearNotices t n => some (supFrame 0 kindMgmt t (0x51 :: bytes16 n))
  | .setNoticeMask t n => some (supFrame 0 kindMgmt t (0x52 :: bytes16 n))
  | .powerOn _ _ | .restartInput | .restartInputRelease | .maintenanceKeyInactive | .maintenanceKeyActive
  | .supervisorFrame _ _ | .supervisorFrameLengthDiscard | .supervisorFrameTimeLimit | .upstreamFrameStart
  | .upstreamFrameSent | .fieldFrameReceived _ _ | .fieldFrameLengthDiscard | .fieldFrameTimeLimit | .fieldFrameSent
  | .replyTimeout | .positionTimerExpiry | .scaleTimerExpiry | .cycleTimerExpiry | .clockMinute
  | .startByteReceived _ | .fieldCheckWordMismatch => none

/-- No row of spec/opcode_table.json gives bits, so no word spells a command. -/
def decodeTableWord (_nbits _w : Nat) : Option Instr := none

end Sys2Proof
end

