-- ==== Sys2Proof/Machine/State.lean ====
section
/-! DEFINITION. The state of the part, block by block, and its value after power-on. -/

namespace Sys2Proof.Machine

/-- One thing for spout A and one for spout B. -/
structure Pair (α : Type) where
  a : α
  b : α
  deriving DecidableEq, Repr

def Pair.get {α : Type} (p : Pair α) : Spout → α
  | .a => p.a
  | .b => p.b

def Pair.set {α : Type} (p : Pair α) (sp : Spout) (x : α) : Pair α :=
  match sp with
  | .a => { p with a := x }
  | .b => { p with b := x }

/-! ## SPORT: receivers and output queue (chapter 1) -/

/-- A receiver (R3): in FRAME it has the ms passed since the start byte. -/
inductive Receiver | hunt | frame (clock : Nat)
  deriving DecidableEq, Repr

/-- The kinds of answer frame (R10). -/
inductive AnswerKind | reply | relayed | refusal
  deriving DecidableEq, Repr

/-- A built answer waiting in its output place (R11). Its N, H and C flags are fixed when it begins to go out;
`trimmed` is its T flag (R13); `isRestart` marks the REPLY to RESTART (R15). -/
structure Answer where
  kind      : AnswerKind
  tag       : Byte
  payload   : List Byte
  trimmed   : Bool
  isRestart : Bool
  deriving DecidableEq, Repr

/-- SPORT's state. The 16 output places (R11) are held by their contents: `reserved` lists the tags of taken frames
whose answer is not ready, `ready` the built answers in send order, its head the one being sent while `sending`
holds a frame; every other place is free (log 15). -/
structure Sport where
  supRx          : Receiver
  fldRx          : Receiver
  reserved       : List Byte
  ready          : List Answer
  sending        : Option Frame
  restartPending : Bool
  deriving DecidableEq, Repr

/-- The input pins, as the part sees them. -/
structure Pins where
  strapClk        : Bool
  strapBaud       : Bool
  keyActive       : Bool
  restartAsserted : Bool
  deriving DecidableEq, Repr

/-! ## FLM: transactions, orders, polls (chapter 2) -/

/-- The blocks that post orders (chapter 2, "The order queue"). -/
inductive Poster | tcu | gate | runc
  deriving DecidableEq, Repr

/-- What an order asks, with the spout whose drive or gate it acts on (log 25). -/
inductive OrderKind
  | stop (sp : Spout)
  | gate (sp : Spout) (setting : Setting)
  | allStop
  deriving DecidableEq, Repr

/-- An entry of the order queue (R21); the station of ALL_STOP is the broadcast address 63. -/
structure Order where
  station : Byte
  kind    : OrderKind
  poster  : Poster
  deriving DecidableEq, Repr

/-- What a poll reads, with the spout or the head index it serves (R26, log 25). -/
inductive PollKind
  | position (sp : Spout)
  | scale (sp : Spout)
  | dust (head : HeadIx)
  deriving DecidableEq, Repr

/-- An entry of the poll set (R26). -/
structure Poll where
  station : Byte
  kind    : PollKind
  deriving DecidableEq, Repr

/-- What a transaction carries: the transaction kind with its attempt, order content or relay entry (R16). -/
inductive Work
  | poll (k : PollKind)
  | order (k : OrderKind) (poster : Poster) (attempt : Nat)
  | relay (tag : Byte)
  deriving DecidableEq, Repr

/-- The transaction record (R16). -/
structure Transaction where
  work     : Work
  station  : Byte
  fieldTag : Byte
  deriving DecidableEq, Repr

/-- The transaction engine (R16): in SENDING the frame on the line, in AWAITING the ms left on the reply timer. -/
inductive Engine
  | free
  | sending (t : Transaction) (frame : Frame)
  | awaiting (t : Transaction) (remaining : Nat)
  deriving DecidableEq, Repr

/-- The last served mark (R30). -/
inductive Served | polls | relays
  deriving DecidableEq, Repr

/-- The engine, the field tag counter and the last served mark. -/
structure FieldLine where
  engine     : Engine
  fieldTag   : Byte
  lastServed : Served
  deriving DecidableEq, Repr

/-- The position and scale timers (R27): stopped, or running with the ms to the next expiry. -/
structure PollTimers where
  position : Option Nat
  scale    : Option Nat
  deriving DecidableEq, Repr

/-- The seven staged settings (R182). Each belongs to the block R182 names; they are kept together. -/
structure Settings where
  replyTimeout   : Word16
  positionPeriod : Word16
  scalePeriod    : Word16
  cyclePeriod    : Word16
  spoutsFitted   : Nat
  alarmCap       : Setting
  maxDelta       : Word16
  deriving DecidableEq, Repr

/-- Every setting staged and in use (R182). -/
structure StagedSettings where
  staged : Settings
  inUse  : Settings
  deriving DecidableEq, Repr

/-! ## RELAY: station map and relay queue (chapter 3) -/

inductive StationKind | spoutDrive | feedGate | beltScale | dustHead | other
  deriving DecidableEq, Repr

inductive RelayClass | free | blocked
  deriving DecidableEq, Repr

/-- A station map entry (R34). -/
structure Station where
  present    : Bool
  kind       : StationKind
  unit       : Byte
  relayClass : RelayClass
  deriving DecidableEq, Repr

/-- The class the TCU gives an accepted MOVE (R68). -/
inductive MoveClass | zoneChange | recovery | sameZone
  deriving DecidableEq, Repr

/-- The kind of a relay entry with what R37 keeps for it; the payload copy is its decoded fields. -/
inductive RelayBody
  | move (m : MoveFields) (cls : MoveClass) (newClaim : Bool)
  | gate (g : GateFields) (forwarded : Setting) (trimmed : Bool)
  | plain (data : List Byte)
  deriving DecidableEq, Repr

/-- A relay queue entry (R37): QUEUED, or ON_LINE. -/
structure RelayEntry where
  tag    : Byte
  dest   : Byte
  body   : RelayBody
  onLine : Bool
  deriving DecidableEq, Repr

/-! ## TCU: zones and spouts (chapter 4) -/

inductive ZoneType | hold | transit | park | route
  deriving DecidableEq, Repr

/-- A zone table entry (R52); `hold` is `none` where the table stores 0, `owner` is the claim owner. -/
structure Zone where
  present  : Bool
  zoneType : ZoneType
  level    : Level
  hold     : Option Hold
  box      : Box
  fromZone : Byte
  toZone   : Byte
  owner    : Option Spout
  deriving DecidableEq, Repr

/-- The zone table and the zone limit (R52, R53). -/
structure ZoneTable where
  entries : Vector Zone 64
  limit   : Nat
  deriving DecidableEq, Repr

inductive SpoutState | unknown | settled | moving | lost
  deriving DecidableEq, Repr

inductive LostCause | breach | stale | noZone
  deriving DecidableEq, Repr

/-- A position in the four axes. -/
structure Position where
  rail  : Word32
  slew  : Word16
  reach : Word16
  lower : Word16
  deriving DecidableEq, Repr

/-- A spout record (R61). -/
structure SpoutRec where
  state      : SpoutState
  current    : ZoneIx
  target     : ZoneIx
  recovery   : Bool
  position   : Position
  posValid   : Bool
  driveFlags : Byte
  missed     : Nat
  overreach  : Bool
  lostCause  : Option LostCause
  deriving DecidableEq, Repr

/-! ## DMON: heads, cycle, hold dust states (chapter 5) -/

/-- The ordered dust states QUIET < WATCH < ALARM < TRIP of holds and of answering heads; QUIET is also the
sample level "none" (R91). -/
inductive Dust | quiet | watch | alarm | trip
  deriving DecidableEq, Repr

/-- A head's state (R81): one of the four, or SILENT. -/
inductive HeadState | live (d : Dust) | silent
  deriving DecidableEq, Repr

/-- A head table entry (R81); `hold` is `none` for a quay head. -/
structure Head where
  present     : Bool
  station     : Byte
  hold        : Option Hold
  watch       : Word16
  alarm       : Word16
  trip        : Word16
  hysteresis  : Word16
  persistence : Byte
  state       : HeadState
  sample      : Word16
  sampleValid : Bool
  riseCount   : Nat
  riseLevel   : Dust
  fallCount   : Nat
  missCount   : Nat
  sampled     : Bool
  deriving DecidableEq, Repr

inductive CycleState | idle | cycling
  deriving DecidableEq, Repr

/-- The sample cycle (R84). -/
structure Cycle where
  state       : CycleState
  pendingHead : Option HeadIx
  overrun     : Bool
  timer       : Option Nat
  deriving DecidableEq, Repr

/-! ## GATE (chapter 6) -/

/-- The gate states other than CHANGING, and the prior state of a relayed setting (R103). -/
inductive GateRest | closed | opened | unsure
  deriving DecidableEq, Repr

/-- The changing-by mark; a relay keeps the prior state (R103, R104). -/
inductive Carrier | order | relay (prior : GateRest)
  deriving DecidableEq, Repr

/-- A gate's state; the demanded setting and the mark are present exactly in CHANGING (R103). -/
inductive GateState | rest (r : GateRest) | changing (demanded : Setting) (by_ : Carrier)
  deriving DecidableEq, Repr

/-- A gate record (R103). -/
structure GateRec where
  state     : GateState
  confirmed : Setting
  deriving DecidableEq, Repr

/-! ## PSEQ and STACK (chapters 7 and 8) -/

inductive StepKind | plan | trim
  deriving DecidableEq, Repr

inductive PourMode | count | opened
  deriving DecidableEq, Repr

inductive OpenBy | supervisor | auto
  deriving DecidableEq, Repr

inductive StepState | waiting | active | held | suspended | done | cancelled
  deriving DecidableEq, Repr

/-- A step record (R121). -/
structure StepRec where
  number          : Word16
  kind            : StepKind
  spout           : Spout
  hold            : Hold
  mode            : PourMode
  target          : Word16
  gateSetting     : Setting
  topOffThreshold : Word16
  topOffSetting   : Setting
  openBy          : OpenBy
  after           : Option Word16
  poured          : Word32
  inTopOff        : Bool
  state           : StepState
  deriving DecidableEq, Repr

/-- A stack entry (R143). -/
structure StackEntry where
  suspended : Word16
  trim      : Word16
  deriving DecidableEq, Repr

/-- The shared level (R143): EMPTY, a spout's fourth entry, or the bill readout cursor. -/
inductive Shared
  | empty
  | entry (sp : Spout) (e : StackEntry)
  | cursor (bill : Word16) (item : Nat)
  deriving DecidableEq, Repr

/-- A stored trim pour (R147). -/
structure TrimRequest where
  hold        : Hold
  target      : Word16
  gateSetting : Setting
  openBy      : OpenBy
  deriving DecidableEq, Repr

/-- STACK's storage (R143, R147): the private levels hold their newest entry first. -/
structure StackUnit where
  levels  : Pair (List StackEntry)
  shared  : Shared
  latches : Pair (Option TrimRequest)
  older   : Option Spout
  deriving DecidableEq, Repr

/-! ## WBILL (chapter 9) -/

/-- A scale baseline (R153). -/
structure Baseline where
  value : Word32
  valid : Bool
  deriving DecidableEq, Repr

inductive BillState | opened | closed | issued
  deriving DecidableEq, Repr

/-- A bill record (R162). -/
structure Bill where
  number      : Word16
  state       : BillState
  openedAt    : Word32
  closedAt    : Word32
  gaps        : Word16
  steps       : Word16
  holds       : Vector Word32 9
  unplaced    : Word32
  total       : Word32
  readThrough : Bool
  deriving DecidableEq, Repr

/-- Clock minutes and the ticks counted towards the next (R161). -/
structure Clock where
  minutes : Word32
  ticks   : Nat
  deriving DecidableEq, Repr

/-! ## NOTE and RUNC (chapter 10) -/

/-- The thirteen notices, in priority order (R185). -/
inductive Notice
  | halted | dustTrip | spoutLost | gateUnsure | fieldSilent | clearance | dustAlarm | scaleJump | strayFlow
  | stepDone | trimTaken | dustOverrun | linkFault
  deriving DecidableEq, Repr

/-- NOTE's flags, subjects and mask (R185); notice number `n` is at index `n - 1`. -/
structure Notices where
  flags    : Vector Bool 13
  subjects : Vector Word16 13
  mask     : Vector Bool 13
  deriving DecidableEq, Repr

inductive RunState | config | run | halt
  deriving DecidableEq, Repr

inductive HaltCause | request | gateFailure
  deriving DecidableEq, Repr

inductive AllStop | pending | sent
  deriving DecidableEq, Repr

/-- RUNC's run state and records of the last halt (R175). -/
structure RunControl where
  state     : RunState
  haltCause : Option HaltCause
  allStop   : Option AllStop
  deriving DecidableEq, Repr

/-! ## The whole part -/

/-- The part, and the queue of commands that wait for it. -/
structure State where
  pending     : List Instr
  freeCount   : Nat
  pins        : Pins
  sport       : Sport
  line        : FieldLine
  orders      : List Order
  polls       : List Poll
  timers      : PollTimers
  settings    : StagedSettings
  stations    : Vector Station 60
  relayQueue  : List RelayEntry
  zones       : ZoneTable
  freeboard   : Vector Word16 9
  console     : Level
  spouts      : Pair SpoutRec
  heads       : Vector Head 16
  cycle       : Cycle
  holdDust    : Vector Dust 9
  gates       : Pair GateRec
  plan        : List StepRec
  stepCounter : Word16
  account     : Pair (Option Word16)
  stack       : StackUnit
  baselines   : Pair Baseline
  bills       : Vector (Option Bill) 8
  unbilled    : Word32
  clock       : Clock
  notices     : Notices
  runc        : RunControl
  deriving DecidableEq, Repr

/-! ## One writer per field -/

def State.withPending (s : State) (x : List Instr) : State := { s with pending := x }
def State.withFreeCount (s : State) (x : Nat) : State := { s with freeCount := x }
def State.withPins (s : State) (x : Pins) : State := { s with pins := x }
def State.withSport (s : State) (x : Sport) : State := { s with sport := x }
def State.withLine (s : State) (x : FieldLine) : State := { s with line := x }
def State.withOrders (s : State) (x : List Order) : State := { s with orders := x }
def State.withPolls (s : State) (x : List Poll) : State := { s with polls := x }
def State.withTimers (s : State) (x : PollTimers) : State := { s with timers := x }
def State.withSettings (s : State) (x : StagedSettings) : State := { s with settings := x }
def State.withStations (s : State) (x : Vector Station 60) : State := { s with stations := x }
def State.withRelayQueue (s : State) (x : List RelayEntry) : State := { s with relayQueue := x }
def State.withZones (s : State) (x : ZoneTable) : State := { s with zones := x }
def State.withFreeboard (s : State) (x : Vector Word16 9) : State := { s with freeboard := x }
def State.withConsole (s : State) (x : Level) : State := { s with console := x }
def State.withSpouts (s : State) (x : Pair SpoutRec) : State := { s with spouts := x }
def State.withHeads (s : State) (x : Vector Head 16) : State := { s with heads := x }
def State.withCycle (s : State) (x : Cycle) : State := { s with cycle := x }
def State.withHoldDust (s : State) (x : Vector Dust 9) : State := { s with holdDust := x }
def State.withGates (s : State) (x : Pair GateRec) : State := { s with gates := x }
def State.withPlan (s : State) (x : List StepRec) : State := { s with plan := x }
def State.withStepCounter (s : State) (x : Word16) : State := { s with stepCounter := x }
def State.withAccount (s : State) (x : Pair (Option Word16)) : State := { s with account := x }
def State.withStack (s : State) (x : StackUnit) : State := { s with stack := x }
def State.withBaselines (s : State) (x : Pair Baseline) : State := { s with baselines := x }
def State.withBills (s : State) (x : Vector (Option Bill) 8) : State := { s with bills := x }
def State.withUnbilled (s : State) (x : Word32) : State := { s with unbilled := x }
def State.withClock (s : State) (x : Clock) : State := { s with clock := x }
def State.withNotices (s : State) (x : Notices) : State := { s with notices := x }
def State.withRunc (s : State) (x : RunControl) : State := { s with runc := x }

/-! ## Outcomes -/

/-- Why a step could stop with a fault: never. The spec stops the part for no event. -/
inductive Fault
  deriving DecidableEq, Repr

/-- Why a command could be refused. `notModelled` would be answered by a dispatch arm whose command has no meaning
yet (safe: the model stops); no arm answers it. -/
inductive Refusal
  | notModelled (mnemonic : String)
  deriving DecidableEq, Repr

/-- What a command's meaning answers. -/
abbrev Result := Host.Outcome State Fault Refusal

/-! ## Power-on values -/

/-- SPORT after power-on and after a restart (R15). -/
def Sport.initial : Sport :=
  { supRx := .hunt, fldRx := .hunt, reserved := [], ready := [], sending := none, restartPending := false }

/-- FLM's line after power-on and after a restart (R33). -/
def FieldLine.initial : FieldLine := { engine := .free, fieldTag := 0, lastServed := .relays }

/-- The defaults of R182. -/
def Settings.default : Settings :=
  { replyTimeout := 20, positionPeriod := 100, scalePeriod := 500, cyclePeriod := 1000, spoutsFitted := 1,
    alarmCap := 15, maxDelta := 500 }

/-- A station map entry at its power-on values (R34). -/
def Station.initial : Station := { present := false, kind := .other, unit := 0, relayClass := .free }

def Box.zero : Box :=
  { railMin := 0, railMax := 0, slewMin := 0, slewMax := 0, reachMin := 0, reachMax := 0, lowerMin := 0, lowerMax := 0 }

/-- A zone table entry at its power-on values (R52). -/
def Zone.initial : Zone :=
  { present := false, zoneType := .transit, level := 0, hold := none, box := Box.zero, fromZone := 0, toZone := 0,
    owner := none }

/-- A spout record after power-on and after a restart (R61). The value under an invalid last position is log 9's. -/
def SpoutRec.initial : SpoutRec :=
  { state := .unknown, current := 0, target := 0, recovery := false,
    position := { rail := 0, slew := 0, reach := 0, lower := 0 }, posValid := false, driveFlags := 0, missed := 0,
    overreach := false, lostCause := none }

/-- A head table entry at its power-on values (R81). -/
def Head.initial : Head :=
  { present := false, station := 0, hold := none, watch := 0, alarm := 0, trip := 0, hysteresis := 0, persistence := 1,
    state := .live .quiet, sample := 0, sampleValid := false, riseCount := 0, riseLevel := .watch, fallCount := 0,
    missCount := 0, sampled := false }

/-- The sample cycle after power-on and after a restart (R102). -/
def Cycle.initial : Cycle := { state := .idle, pendingHead := none, overrun := false, timer := none }

/-- A gate record after power-on and after a restart (R103). -/
def GateRec.initial : GateRec := { state := .rest .unsure, confirmed := 0 }

/-- STACK after power-on and after a restart (R152). -/
def StackUnit.initial : StackUnit :=
  { levels := { a := [], b := [] }, shared := .empty, latches := { a := none, b := none }, older := none }

/-- RUNC after power-on and after a restart (R175). -/
def RunControl.initial : RunControl := { state := .config, haltCause := none, allStop := none }

/-- The part right after power-on (R184 and each block's table), with its pins at the levels of log 6. -/
def State.reset : State :=
  { pending := []
    freeCount := 0
    pins := { strapClk := false, strapBaud := false, keyActive := false, restartAsserted := false }
    sport := Sport.initial
    line := FieldLine.initial
    orders := []
    polls := []
    timers := { position := none, scale := none }
    settings := { staged := Settings.default, inUse := Settings.default }
    stations := Vector.replicate 60 Station.initial
    relayQueue := []
    zones := { entries := Vector.replicate 64 Zone.initial, limit := 1 }
    freeboard := Vector.replicate 9 0
    console := 2
    spouts := { a := SpoutRec.initial, b := SpoutRec.initial }
    heads := Vector.replicate 16 Head.initial
    cycle := Cycle.initial
    holdDust := Vector.replicate 9 .quiet
    gates := { a := GateRec.initial, b := GateRec.initial }
    plan := []
    stepCounter := 1
    account := { a := none, b := none }
    stack := StackUnit.initial
    baselines := { a := { value := 0, valid := false }, b := { value := 0, valid := false } }
    bills := Vector.replicate 8 none
    unbilled := 0
    clock := { minutes := 0, ticks := 0 }
    notices := { flags := Vector.replicate 13 false, subjects := Vector.replicate 13 0,
                 mask := Vector.replicate 13 false }
    runc := RunControl.initial }

end Sys2Proof.Machine
end

