-- ==== Sys2Proof/Machine/Ops.lean ====
section
/-! DEFINITION. The operations every block uses: tables, notices, answers upstream, the station map, posting orders
and polls, claims. -/

namespace Sys2Proof.Machine

/-- A table with every entry changed by `f`. -/
def mapTable {α β : Type} {n : Nat} (f : α → β) (v : Vector α n) : Vector β n := Vector.ofFn fun i => f v[i]

/-- Both spouts, A first. -/
def bothSpouts : List Spout := [.a, .b]

def otherSpout : Spout → Spout
  | .a => .b
  | .b => .a

/-! ## Notices (R185) -/

/-- A notice's place in NOTE's tables: its number less 1. -/
def Notice.ix : Notice → Fin 13
  | .halted => 0 | .dustTrip => 1 | .spoutLost => 2 | .gateUnsure => 3 | .fieldSilent => 4 | .clearance => 5
  | .dustAlarm => 6 | .scaleJump => 7 | .strayFlow => 8 | .stepDone => 9 | .trimTaken => 10 | .dustOverrun => 11
  | .linkFault => 12

/-- A block sets a notice: its flag becomes set and its subject the event's, masked or not (R185). -/
def setNotice (n : Notice) (subject : Word16) (s : State) : State :=
  s.withNotices
    { s.notices with flags := s.notices.flags.set n.ix.val true, subjects := s.notices.subjects.set n.ix.val subject }

/-- The attention condition: some flag is set and not in the mask (R188). -/
def attentionOf (n : Notices) : Bool := (List.finRange 13).any fun i => n.flags[i] && !n.mask[i]

/-- The attention output, which also is the N flag (R13, R188). -/
def State.attention (s : State) : Bool := attentionOf s.notices

/-- A byte as a notice subject. -/
def subjectByte (b : Byte) : Word16 := b.setWidth 16

/-- A spout as a notice subject: 0 A, 1 B. -/
def subjectSpout (sp : Spout) : Word16 := subjectByte sp.byte

/-- A hold's number 1..9 as a byte. -/
def holdByte (h : Hold) : Byte := byteOfNat (h.val + 1)

/-! ## Answers upstream (R10, R11) -/

/-- How many of the 16 output places are in use (R12). -/
def State.placesUsed (s : State) : Nat := s.sport.reserved.length + s.sport.ready.length

/-- An answer becomes ready: it joins the send order at its end (R10, R11). -/
def pushReady (a : Answer) (s : State) : State := s.withSport { s.sport with ready := s.sport.ready ++ [a] }

/-- What carrying out a management request gives: the result code, the reply data, and the state it leaves. -/
structure Reply where
  code  : Code
  data  : List Byte
  state : State
  deriving DecidableEq, Repr

/-- A REPLY DONE with data (R192). -/
def Reply.ok (data : List Byte) (s : State) : Reply := { code := .done, data, state := s }

/-- A REPLY that refuses: no data, and the request has changed nothing (R192). -/
def Reply.refuse (code : Code) (s : State) : Reply := { code, data := [], state := s }

def replyAnswer (tag : Byte) (code : Code) (data : List Byte) : Answer :=
  { kind := .reply, tag, payload := code.byte :: data, trimmed := false, isRestart := false }

/-- A REFUSAL: the reason, its subject and the kind byte of the refused frame (R8, R50). -/
def refusalAnswer (tag : Byte) (reason : Code) (subject kind : Byte) : Answer :=
  { kind := .refusal, tag, payload := [reason.byte, subject, kind], trimmed := false, isRestart := false }

/-- A relay entry's answer becomes ready in the place its frame reserved, and the entry leaves the queue (R37, R11). -/
def answerEntry (e : RelayEntry) (a : Answer) (s : State) : State :=
  (s.withRelayQueue (s.relayQueue.filter fun x => x.tag ≠ e.tag)).withSport
    { s.sport with reserved := s.sport.reserved.erase e.tag, ready := s.sport.ready ++ [a] }

/-- The kind byte of a relay entry. -/
def RelayBody.kindByte : RelayBody → Byte
  | .move _ _ _ => kindMove
  | .gate _ _ _ => kindGate
  | .plain _ => kindPlain

/-- A relay entry is removed and answered with a REFUSAL (R50). -/
def refuseEntry (reason : Code) (subject : Byte) (e : RelayEntry) (s : State) : State :=
  answerEntry e (refusalAnswer e.tag reason subject e.body.kindByte) s

/-- Every QUEUED entry that `p` picks is removed and answered, oldest first (R47 to R49). -/
def preempt (p : RelayEntry → Bool) (reason : Code) (subject : Byte) (s : State) : State :=
  (s.relayQueue.filter fun e => !e.onLine && p e).foldl (fun t e => refuseEntry reason subject e t) s

/-! ## The station map (R34) -/

/-- The map entry at an address, for addresses 1..60. -/
def stationAt (s : State) (address : Byte) : Option Station :=
  if h : 1 ≤ address.toNat ∧ address.toNat ≤ 60 then
    some (s.stations[address.toNat - 1]'(by omega))
  else none

/-- A present map entry of this kind and unit. -/
def Station.serves (x : Station) (kind : StationKind) (unit : Byte) : Bool :=
  x.present && x.kind == kind && x.unit == unit

/-- How many present entries have this kind and unit (R36). -/
def stationCount (s : State) (kind : StationKind) (unit : Byte) : Nat :=
  s.stations.toList.countP fun x => x.serves kind unit

/-- The spout's station of a kind: the lowest address that serves it. In RUN and HALT there is exactly one (R36). -/
def stationOf (s : State) (kind : StationKind) (sp : Spout) : Option Byte :=
  ((List.finRange 60).find? fun i => (s.stations[i]).serves kind sp.byte).map fun i => byteOfNat (i.val + 1)

/-- Whether a spout is fitted, by the spouts-fitted value in use (R182). -/
def fitted (s : State) (sp : Spout) : Bool :=
  match sp with
  | .a => true
  | .b => s.settings.inUse.spoutsFitted == 2

/-- The fitted spouts, A first. -/
def fittedSpouts (s : State) : List Spout := bothSpouts.filter fun sp => fitted s sp

/-! ## Posting orders and polls (R21, R26) -/

/-- The broadcast address (R5). -/
def broadcast : Byte := 63

/-- The order queue after an order is posted: it replaces the waiting entry of its station in place, or joins the
tail; an ALL_STOP that meets a waiting one leaves the queue as it stands (R21). -/
def queueOrder (o : Order) (q : List Order) : List Order :=
  if q.any fun x => x.station == o.station then
    if o.kind = .allStop then q else q.map fun x => if x.station = o.station then o else x
  else q ++ [o]

def postOrder (o : Order) (s : State) : State := s.withOrders (queueOrder o s.orders)

/-- ORDER_STOP to a spout's drive (R77). With no such station in the map nothing is posted (log 18). -/
def postStop (sp : Spout) (s : State) : State :=
  match stationOf s .spoutDrive sp with
  | some st => postOrder { station := st, kind := .stop sp, poster := .tcu } s
  | none => s

/-- ORDER_GATE with a setting to a spout's gate (R114). -/
def postGate (sp : Spout) (x : Setting) (s : State) : State :=
  match stationOf s .feedGate sp with
  | some st => postOrder { station := st, kind := .gate sp x, poster := .gate } s
  | none => s

/-- ALL_STOP, posted by RUNC at HALT entry (R179). -/
def postAllStop (s : State) : State := postOrder { station := broadcast, kind := .allStop, poster := .runc } s

/-- The transaction on the line, if any (R16). -/
def Engine.transaction? : Engine → Option Transaction
  | .free => none
  | .sending t _ => some t
  | .awaiting t _ => some t

/-- FLD_DE: the part is transmitting on the field line (R1, R18). -/
def Engine.driving : Engine → Bool
  | .sending _ _ => true
  | _ => false

/-- A poll transaction for this station is on the line. -/
def pollOnLine (s : State) (station : Byte) : Bool :=
  match s.line.engine.transaction? with
  | some { work := .poll _, station := st, .. } => st == station
  | _ => false

/-- A poll is made due: skipped where one for the station is pending, else it joins the set (R26). -/
def pollDue (p : Poll) (s : State) : State :=
  if s.polls.any (fun x => x.station == p.station) || pollOnLine s p.station then s
  else s.withPolls (s.polls ++ [p])

/-- A position poll for a spout's drive is made due (R27). -/
def positionDue (sp : Spout) (s : State) : State :=
  match stationOf s .spoutDrive sp with
  | some st => pollDue { station := st, kind := .position sp } s
  | none => s

/-- A scale poll for a spout's scale is made due (R27). -/
def scaleDue (sp : Spout) (s : State) : State :=
  match stationOf s .beltScale sp with
  | some st => pollDue { station := st, kind := .scale sp } s
  | none => s

/-- The poll timer's polls, spout A first (R27). -/
def positionPolls (s : State) : State := (fittedSpouts s).foldl (fun t sp => positionDue sp t) s

def scalePolls (s : State) : State := (fittedSpouts s).foldl (fun t sp => scaleDue sp t) s

/-! ## Zones and claims (R52, R57) -/

/-- The zone table's entry at an index byte, for 0..63. -/
def zoneIx? (b : Byte) : Option ZoneIx := if h : b.toNat < 64 then some ⟨b.toNat, h⟩ else none

def State.zone (s : State) (i : ZoneIx) : Zone := s.zones.entries[i]

/-- The hold a zone covers: only a HOLD zone has one. -/
def Zone.holdOf (z : Zone) : Option Hold := if z.zoneType = .hold then z.hold else none

def setZoneOwner (i : ZoneIx) (o : Option Spout) (s : State) : State :=
  s.withZones { s.zones with entries := s.zones.entries.set i.val { s.zone i with owner := o } }

/-- A zone not claimed by the spout is claimed for it (R68). -/
def claimZone (sp : Spout) (i : ZoneIx) (s : State) : State := setZoneOwner i (some sp) s

/-- A spout's claim on a zone is released. -/
def releaseZone (sp : Spout) (i : ZoneIx) (s : State) : State :=
  if (s.zone i).owner = some sp then setZoneOwner i none s else s

def setSpout (sp : Spout) (r : SpoutRec) (s : State) : State := s.withSpouts (s.spouts.set sp r)

def setGate (sp : Spout) (r : GateRec) (s : State) : State := s.withGates (s.gates.set sp r)

/-- The offset of a hold (R60). -/
def offsetOf (s : State) (h : Hold) : Word16 := s.freeboard[h]

/-- A zone's effective lower max (R60): a HOLD zone's loaded lower max less its hold's offset, but not below its
loaded lower min. -/
def effLowerMax (s : State) (z : Zone) : Word16 :=
  match z.holdOf with
  | some h => BitVec.ofNat 16 (max (z.box.lowerMax.toNat - (offsetOf s h).toNat) z.box.lowerMin.toNat)
  | none => z.box.lowerMax

/-! ## Dust order (R91, R99) -/

def Dust.rank : Dust → Nat
  | .quiet => 0
  | .watch => 1
  | .alarm => 2
  | .trip => 3

/-- SILENT counts as ALARM in a hold (R99). -/
def HeadState.counts : HeadState → Dust
  | .live d => d
  | .silent => .alarm

def Dust.max (x y : Dust) : Dust := if x.rank ≤ y.rank then y else x

def Dust.min (x y : Dust) : Dust := if x.rank ≤ y.rank then x else y

end Sys2Proof.Machine
end

