-- ==== Sys2Proof/Machine/Operands.lean ====
section
/-! DEFINITION. The codes of named values in request fields and reply data (R193), and reading a field's range. -/

namespace Sys2Proof.Machine

/-- A hold number 1..9. -/
def holdOfByte (b : Byte) : Option Hold :=
  if h : 1 ≤ b.toNat ∧ b.toNat ≤ 9 then some ⟨b.toNat - 1, by omega⟩ else none

/-- A head index 0..15. -/
def headIx? (b : Byte) : Option HeadIx := if h : b.toNat < 16 then some ⟨b.toNat, h⟩ else none

/-- A field station's index in the map, for addresses 1..60. -/
def addressIx? (b : Byte) : Option (Fin 60) :=
  if h : 1 ≤ b.toNat ∧ b.toNat ≤ 60 then some ⟨b.toNat - 1, by omega⟩ else none

/-- A hold, or 0 where there is none. -/
def holdCode : Option Hold → Byte
  | some h => holdByte h
  | none => 0

def StationKind.byte : StationKind → Byte
  | .spoutDrive => 0 | .feedGate => 1 | .beltScale => 2 | .dustHead => 3 | .other => 4

def stationKindOfByte (b : Byte) : Option StationKind :=
  if b = 0 then some .spoutDrive else if b = 1 then some .feedGate else if b = 2 then some .beltScale
  else if b = 3 then some .dustHead else if b = 4 then some .other else none

def RelayClass.byte : RelayClass → Byte
  | .free => 0 | .blocked => 1

def relayClassOfByte (b : Byte) : Option RelayClass :=
  if b = 0 then some .free else if b = 1 then some .blocked else none

def ZoneType.byte : ZoneType → Byte
  | .hold => 0 | .transit => 1 | .park => 2 | .route => 3

def zoneTypeOfByte (b : Byte) : Option ZoneType :=
  if b = 0 then some .hold else if b = 1 then some .transit else if b = 2 then some .park
  else if b = 3 then some .route else none

/-- Claim owner: 0 none, 1 A, 2 B. -/
def ownerCode : Option Spout → Byte
  | none => 0
  | some .a => 1
  | some .b => 2

def SpoutState.byte : SpoutState → Byte
  | .unknown => 0 | .settled => 1 | .moving => 2 | .lost => 3

def lostCauseCode : Option LostCause → Byte
  | none => 0
  | some .breach => 1
  | some .stale => 2
  | some .noZone => 3

def GateState.byte : GateState → Byte
  | .rest .closed => 0
  | .rest .opened => 1
  | .changing _ _ => 2
  | .rest .unsure => 3

def Dust.byte : Dust → Byte
  | .quiet => 0 | .watch => 1 | .alarm => 2 | .trip => 3

def HeadState.byte : HeadState → Byte
  | .live d => d.byte
  | .silent => 4

def CycleState.byte : CycleState → Byte
  | .idle => 0 | .cycling => 1

def RunState.byte : RunState → Byte
  | .config => 0 | .run => 1 | .halt => 2

def HaltCause.byte : HaltCause → Byte
  | .request => 1 | .gateFailure => 2

def haltCauseCode : Option HaltCause → Byte
  | none => 0
  | some c => c.byte

def allStopCode : Option AllStop → Byte
  | none => 0
  | some .pending => 1
  | some .sent => 2

def StepKind.byte : StepKind → Byte
  | .plan => 0 | .trim => 1

def PourMode.byte : PourMode → Byte
  | .count => 0 | .opened => 1

def modeOfByte (b : Byte) : Option PourMode :=
  if b = 0 then some .count else if b = 1 then some .opened else none

def OpenBy.byte : OpenBy → Byte
  | .supervisor => 0 | .auto => 1

def openByOfByte (b : Byte) : Option OpenBy :=
  if b = 0 then some .supervisor else if b = 1 then some .auto else none

def StepState.byte : StepState → Byte
  | .waiting => 0 | .active => 1 | .held => 2 | .suspended => 3 | .done => 4 | .cancelled => 5

def BillState.byte : BillState → Byte
  | .opened => 0 | .closed => 1 | .issued => 2

/-- A table of thirteen flags as a notice set: bit k stands for notice k (R193). -/
def noticeSet (v : Vector Bool 13) : Word16 :=
  (List.finRange 13).foldl (fun w i => if v[i] then w ||| (1#16 <<< (i.val + 1)) else w) 0

/-- A notice set names only notices 1..13: bits 0, 14 and 15 are 0 (R187, R193). -/
def noticeSetOk (w : Word16) : Bool := !w.getLsbD 0 && !w.getLsbD 14 && !w.getLsbD 15

/-- Whether a notice set names the notice at an index. -/
def noticeNamed (w : Word16) (i : Fin 13) : Bool := w.getLsbD (i.val + 1)

end Sys2Proof.Machine
end

