-- ==== Sys2Proof/Machine/Flags.lean ====
section
/-! DEFINITION. The header flags of frames sent upstream (R13). -/

namespace Sys2Proof.Machine

/-- The flags byte: bit 0 N, bit 1 T, bit 2 H, bit 3 C, the others 0. -/
def flagsByte (n t h c : Bool) : Byte :=
  (if n then 1#8 else 0#8) ||| (if t then 2#8 else 0#8) ||| (if h then 4#8 else 0#8) ||| (if c then 8#8 else 0#8)

/-- The flags of an answer whose start byte begins to go out in state `s`: N, H and C as they stand there, T as fixed
when the answer was built. -/
def headerFlags (s : State) (a : Answer) : Byte :=
  flagsByte s.attention a.trimmed (s.runc.state == .halt) (s.runc.state == .config)

end Sys2Proof.Machine
end

