-- ==== Sys2Proof/Machine/Steps.lean ====
section
/-! DEFINITION. The plan's records: finding and changing them, numbers, the running step (chapter 7). -/

namespace Sys2Proof.Machine

/-- The record of a step number. -/
def findStep (s : State) (n : Word16) : Option StepRec := s.plan.find? fun r => r.number == n

/-- The record of a step number is changed by `f`. -/
def updateStep (n : Word16) (f : StepRec → StepRec) (s : State) : State :=
  s.withPlan (s.plan.map fun r => if r.number = n then f r else r)

def setStepState (n : Word16) (x : StepState) (s : State) : State := updateStep n (fun r => { r with state := x }) s

/-- ACTIVE and HELD are the pouring states (R121). -/
def StepRec.pouring (r : StepRec) : Bool := r.state == .active || r.state == .held

/-- DONE and CANCELLED are the finished states (R121). -/
def StepRec.finished (r : StepRec) : Bool := r.state == .done || r.state == .cancelled

/-- The spout's step that is ACTIVE or HELD (R127: at most one). -/
def pouringStep (s : State) (sp : Spout) : Option StepRec := s.plan.find? fun r => r.spout == sp && r.pouring

/-- The spout's ACTIVE step. -/
def activeStep (s : State) (sp : Spout) : Option StepRec := s.plan.find? fun r => r.spout == sp && r.state == .active

/-- The spout's first WAITING step in plan order. -/
def firstWaiting (s : State) (sp : Spout) : Option StepRec := s.plan.find? fun r => r.spout == sp && r.state == .waiting

/-- The running step of a fitted spout (R127). -/
def runningStep (s : State) (sp : Spout) : Option StepRec :=
  if fitted s sp then
    match pouringStep s sp with
    | some r => some r
    | none => firstWaiting s sp
  else none

/-- The effective target of a COUNT step: a target of 0 means 65536 (R121). -/
def StepRec.effTarget (r : StepRec) : Nat := if r.target = 0 then 65536 else r.target.toNat

/-- A COUNT step whose poured amount is at or above its effective target (R133). -/
def StepRec.complete (r : StepRec) : Bool := r.mode == .count && r.effTarget ≤ r.poured.toNat

/-- The after-link is satisfied: absent, or the step it names is finished or no longer in the plan (R126). -/
def afterSatisfied (s : State) (r : StepRec) : Bool :=
  match r.after with
  | none => true
  | some n =>
    match findStep s n with
    | none => true
    | some q => q.finished

/-- The hold a spout's current zone covers, if it is a HOLD zone. -/
def currentHold (s : State) (sp : Spout) : Option Hold := (s.zone (s.spouts.get sp).current).holdOf

/-- The spout is SETTLED in a HOLD zone of this hold. -/
def settledOver (s : State) (sp : Spout) (h : Hold) : Bool :=
  (s.spouts.get sp).state == .settled && currentHold s sp == some h

/-! ## Step numbers (R122) -/

/-- The counter advances: up by 1, and from 65535 to 1. -/
def advance (c : Word16) : Word16 := if c = 0xFFFF#16 then 1#16 else c + 1#16

/-- The counter's first value, from `c` on, that names no record; at most `fuel` advances. -/
def freeNumber (used : List Word16) : Nat → Word16 → Word16
  | 0, c => c
  | fuel + 1, c => if c ∈ used then freeNumber used fuel (advance c) else c

/-- The number the next step takes (R122): at most 32 records are in the plan, so 32 advances suffice. -/
def nextNumber (s : State) : Word16 := freeNumber (s.plan.map (·.number)) (s.plan.length) s.stepCounter

/-- The spout's ACTIVE step becomes HELD (R130). -/
def holdStep (sp : Spout) (s : State) : State :=
  match activeStep s sp with
  | some r => setStepState r.number .held s
  | none => s

end Sys2Proof.Machine
end

