-- ==== Sys2Proof/Machine/Gates.lean ====
section
/-! DEFINITION. GATE: the pour block, the cap, the GATE request check and the orders GATE posts (chapter 6). -/

namespace Sys2Proof.Machine

/-! ## The pour block (R107) -/

/-- The causes of a pour block, numbered 1 to 4. -/
inductive BlockCause | dust | overreach | lost | halt
  deriving DecidableEq, Repr

def BlockCause.byte : BlockCause → Byte
  | .dust => 1 | .overreach => 2 | .lost => 3 | .halt => 4

/-- Cause DUST: the current zone is a HOLD zone whose hold is at TRIP. -/
def dustBlocked (s : State) (sp : Spout) : Bool :=
  match currentHold s sp with
  | some h => s.holdDust[h] == .trip
  | none => false

/-- The cause reported for a fitted spout's pour: the lowest-numbered one that holds; `none` where the pour is not
blocked (R107). -/
def pourBlock (s : State) (sp : Spout) : Option BlockCause :=
  if !fitted s sp then none
  else if dustBlocked s sp then some .dust
  else if (s.spouts.get sp).overreach then some .overreach
  else if (s.spouts.get sp).state = .lost then some .lost
  else if s.runc.state = .halt then some .halt
  else none

def blocked (s : State) (sp : Spout) : Bool := (pourBlock s sp).isSome

/-- The first fitted spout, A before B, whose gate is not CLOSED (R166, R181). -/
def unclosedGate (s : State) : Option Spout :=
  (fittedSpouts s).find? fun sp => (s.gates.get sp).state != .rest .closed

/-! ## The cap (R110) -/

/-- The cap computed from a step: its gate setting, or its top-off setting once in top-off; over a hold at ALARM not
above the alarm cap in use. -/
def capOfStep (s : State) (r : StepRec) : Setting :=
  let base := if r.inTopOff then r.topOffSetting else r.gateSetting
  if s.holdDust[r.hold] = .alarm then
    if base.val ≤ s.settings.inUse.alarmCap.val then base else s.settings.inUse.alarmCap
  else base

/-- The cap of a spout: defined while it has an ACTIVE or HELD step. -/
def cap (s : State) (sp : Spout) : Option Setting := (pouringStep s sp).map (capOfStep s)

/-! ## Orders (R114 to R117) -/

/-- The setting of the gate order waiting for the spout's gate, if one waits. -/
def gateWaiting (s : State) (sp : Spout) : Option Setting :=
  s.orders.findSome? fun o =>
    match o.kind with
    | .gate q x => if q = sp then some x else none
    | _ => none

/-- The gate's intended setting (R114). -/
def intended (s : State) (sp : Spout) : Option Setting :=
  match gateWaiting s sp with
  | some x => some x
  | none =>
    match (s.gates.get sp).state with
    | .changing d _ => some d
    | .rest .unsure => none
    | .rest _ => some (s.gates.get sp).confirmed

/-- A close order, always (R115). -/
def postClose (sp : Spout) (s : State) : State := postGate sp 0 s

/-- A close order, unless the gate is CLOSED and no gate order for its station waits (R115). -/
def closeUnlessClosed (sp : Spout) (s : State) : State :=
  if (s.gates.get sp).state = .rest .closed ∧ gateWaiting s sp = none then s else postClose sp s

/-- A reduce order at the new cap, where the spout has an ACTIVE step and the gate's intended setting is above the
cap; at cap 0 it is a close (R116). A waiting close makes the intended setting 0, which is above no cap. -/
def reduceTo (sp : Spout) (c : Setting) (s : State) : State :=
  match activeStep s sp, intended s sp with
  | some _, some x => if c.val < x.val then postGate sp c s else s
  | _, _ => s

/-- An open order at the cap in force; at cap 0 it is a close (R117). -/
def openAtCap (sp : Spout) (s : State) : State :=
  match cap s sp with
  | some c => postGate sp c s
  | none => s

/-! ## The GATE request check (R111 to R113) -/

/-- The check of a request with setting 1..31; its answer is the cap in force, or the reason and subject. -/
def gateCheck (s : State) (sp : Spout) : Except (Code × Byte) Setting :=
  if s.runc.state = .config then .error (.notRunning, 0)
  else if s.runc.state = .halt then .error (.halted, 0)
  else if (s.gates.get sp).state = .rest .unsure then .error (.gateUnsure, sp.byte)
  else
    match pouringStep s sp with
    | none => .error (.noStep, sp.byte)
    | some r =>
      match pourBlock s sp with
      | some c => .error (.pourBlocked, c.byte)
      | none => if r.state = .held then .error (.noStep, sp.byte) else .ok (capOfStep s r)

/-- The forwarded setting: the smaller of the request and the cap (R113). -/
def forwardedSetting (requested c : Setting) : Setting := if requested.val ≤ c.val then requested else c

/-! ## A pour block begins (R108) -/

/-- A QUEUED GATE entry of the spout above 0 (R47). -/
def isGateAboveZero (sp : Spout) (e : RelayEntry) : Bool :=
  match e.body with
  | .gate g _ _ => g.spout == sp && g.setting != 0
  | _ => false

/-- GATE evaluates the pour block of a spout whose last evaluation found it blocked as `was` says. At a beginning it
posts the close order, RELAY answers the spout's GATE entries above 0 and PSEQ holds the ACTIVE step. A beginning with
cause HALT is answered by R48 instead. A lift changes nothing here: PSEQ's tests follow at the end of the event
(R109). -/
def evaluateBlock (was : Bool) (sp : Spout) (s : State) : State :=
  match was, pourBlock s sp with
  | false, some c =>
    let s := closeUnlessClosed sp s
    let s := if c = .halt then s else preempt (isGateAboveZero sp) .pourBlocked c.byte s
    holdStep sp s
  | _, _ => s

end Sys2Proof.Machine
end

