-- ==== Sys2Proof/Machine/Stacks.lean ====
section
/-! DEFINITION. STACK and the ends of steps: pushes, pops, trim latches, entering DONE, the activation test (chapters 7
and 8). -/

namespace Sys2Proof.Machine

/-! ## The open bill (R162) and its step count (R165) -/

/-- The slot whose record is OPEN, if any. -/
def openSlot (s : State) : Option (Fin 8) :=
  (List.finRange 8).find? fun i =>
    match s.bills[i] with
    | some b => b.state == .opened
    | none => false

def setBill (i : Fin 8) (b : Bill) (s : State) : State := s.withBills (s.bills.set i.val (some b))

/-- A 16-bit count goes up by 1 and stops at 65535 (R162). -/
def satInc (w : Word16) : Word16 := if w = 0xFFFF#16 then w else w + 1#16

/-- The OPEN record, if any, is changed by `f`. -/
def updateOpenBill (f : Bill → Bill) (s : State) : State :=
  match openSlot s with
  | some i =>
    match s.bills[i] with
    | some b => setBill i (f b) s
    | none => s
  | none => s

/-- WBILL is told that a step entered DONE (R165). -/
def countDoneStep (s : State) : State := updateOpenBill (fun b => { b with steps := satInc b.steps }) s

/-! ## Creating steps (R122, R123, R145) -/

/-- A new record joins the plan: `place` puts it into the list; it takes the next number and the counter advances. -/
def joinPlan (mk : Word16 → StepRec) (place : StepRec → List StepRec → List StepRec) (s : State) : State :=
  (s.withPlan (place (mk (nextNumber s)) s.plan)).withStepCounter (advance (nextNumber s))

/-- The TRIM record of R145. -/
def trimRecord (sp : Spout) (r : TrimRequest) (n : Word16) : StepRec :=
  { number := n, kind := .trim, spout := sp, hold := r.hold, mode := .count, target := r.target,
    gateSetting := r.gateSetting, topOffThreshold := 0, topOffSetting := 0, openBy := r.openBy, after := none,
    poured := 0, inTopOff := false, state := .waiting }

/-- A record goes immediately before the record of number `n` (R145). -/
def insertBefore (n : Word16) (x : StepRec) : List StepRec → List StepRec
  | [] => [x]
  | r :: rs => if r.number = n then x :: r :: rs else r :: insertBefore n x rs

/-- The TRIM step created at the tail (R144 check 3, R149). -/
def createTrimAtTail (sp : Spout) (r : TrimRequest) (s : State) : State :=
  joinPlan (trimRecord sp r) (fun x l => l ++ [x]) s

/-! ## Pushing (R143, R146) -/

/-- A level is free for a push of the spout (R143). -/
def levelFree (s : State) (sp : Spout) : Bool :=
  (s.stack.levels.get sp).length < Config.privateLevels || s.stack.shared == .empty

/-- A new top entry, in the first free private level, else in the shared level. -/
def pushEntry (sp : Spout) (e : StackEntry) (s : State) : State :=
  if (s.stack.levels.get sp).length < Config.privateLevels then
    s.withStack { s.stack with levels := s.stack.levels.set sp (e :: s.stack.levels.get sp) }
  else s.withStack { s.stack with shared := .entry sp e }

/-- The push of the running step `r` with the TRIM step that takes its place (R146): the entry, SUSPENDED, a close
where it was ACTIVE, and the TRIM record inserted before it. -/
def pushRunning (sp : Spout) (r : StepRec) (req : TrimRequest) (s : State) : State :=
  let s := pushEntry sp { suspended := r.number, trim := nextNumber s } s
  let s := setStepState r.number .suspended s
  let s := if r.state = .active then closeUnlessClosed sp s else s
  joinPlan (trimRecord sp req) (insertBefore r.number) s

/-! ## The trim latches (R147, R149) -/

def setLatch (sp : Spout) (r : TrimRequest) (s : State) : State :=
  s.withStack
    { s.stack with
      latches := s.stack.latches.set sp (some r)
      older := if (s.stack.latches.get (otherSpout sp)).isSome then s.stack.older else some sp }

def clearLatch (sp : Spout) (s : State) : State :=
  s.withStack
    { s.stack with
      latches := s.stack.latches.set sp none
      older := if (s.stack.latches.get (otherSpout sp)).isSome then some (otherSpout sp) else none }

/-- The service of a latch (R149): discarded over a full plan, else the running step is pushed, or the TRIM step is
created at the tail; the latch is cleared and TRIM_TAKEN set. -/
def serveLatch (sp : Spout) (s : State) : State :=
  match s.stack.latches.get sp with
  | none => s
  | some req =>
    if Config.planRecords ≤ s.plan.length then setNotice .trimTaken 0 (clearLatch sp s)
    else
      let n := nextNumber s
      let s :=
        match runningStep s sp with
        | some r => pushRunning sp r req s
        | none => createTrimAtTail sp req s
      setNotice .trimTaken n (clearLatch sp s)

/-- The EMPTY shared level serves the older set latch, and then, if still EMPTY, the other (R149). -/
def serveShared (s : State) : State :=
  match s.stack.shared, s.stack.older with
  | .empty, some sp =>
    let s := serveLatch sp s
    if s.stack.shared = .empty then serveLatch (otherSpout sp) s else s
  | _, _ => s

/-! ## Popping (R148) -/

/-- The spout's top entry: its fourth, in the shared level, or the newest private one. -/
def topEntry (s : State) (sp : Spout) : Option StackEntry :=
  match s.stack.shared with
  | .entry q e => if q = sp then some e else (s.stack.levels.get sp).head?
  | _ => (s.stack.levels.get sp).head?

/-- The top entry leaves the stack. -/
def dropTop (sp : Spout) (s : State) : State :=
  match s.stack.shared with
  | .entry q e =>
    if q = sp then s.withStack { s.stack with shared := .empty }
    else s.withStack { s.stack with shared := .entry q e, levels := s.stack.levels.set sp (s.stack.levels.get sp).tail }
  | _ => s.withStack { s.stack with levels := s.stack.levels.set sp (s.stack.levels.get sp).tail }

/-- The effects of entering DONE that end no pour: the state, STEP_DONE and WBILL's count (R134 steps 1, 3, 4). -/
def markDone (n : Word16) (s : State) : State := countDoneStep (setNotice .stepDone n (setStepState n .done s))

/-- The pops of one event (R148): while the top entry's trim step is the one that ended, it is popped and its
suspended step returns to WAITING; a complete COUNT step becomes DONE at once, and a TRIM step so ended pops on. A
stack holds at most four entries. -/
def popCascade (sp : Spout) : Nat → Word16 → State → State
  | 0, _, s => s
  | fuel + 1, ended, s =>
    match topEntry s sp with
    | none => s
    | some e =>
      if e.trim = ended then
        let s := setStepState e.suspended .waiting (dropTop sp s)
        match findStep s e.suspended with
        | none => s
        | some r =>
          if r.complete then
            let s := markDone r.number s
            if r.kind = .trim then popCascade sp fuel r.number s else s
          else s
      else s

/-- A TRIM step of a spout has ended: the cascade, then the freed levels are offered to the latches, the private level
to its own spout's latch first (R148, R149). -/
def trimEnded (sp : Spout) (n : Word16) (s : State) : State :=
  let t := popCascade sp 4 n s
  let u := if (t.stack.levels.get sp).length < (s.stack.levels.get sp).length then serveLatch sp t else t
  if t.stack.shared = .empty ∧ s.stack.shared ≠ .empty then serveShared u else u

/-- A step leaves ACTIVE (or was not ACTIVE) and ends; a TRIM step pops (R134 steps 2 and 5, R138 steps 1 and 2). -/
def afterEnd (r : StepRec) (s : State) : State := if r.kind = .trim then trimEnded r.spout r.number s else s

/-- A step enters DONE (R134 steps 1 to 5); the activation test follows at the end of the event. -/
def enterDone (r : StepRec) (s : State) : State :=
  let s := setStepState r.number .done s
  let s := if r.state = .active then closeUnlessClosed r.spout s else s
  let s := countDoneStep (setNotice .stepDone r.number s)
  afterEnd r s

/-! ## Top-off (R135) -/

/-- The top-off test holds for a record. -/
def StepRec.topOffDue (r : StepRec) : Bool :=
  r.mode == .count && r.topOffThreshold != 0 && !r.inTopOff && r.state == .active
    && r.effTarget - r.poured.toNat ≤ r.topOffThreshold.toNat

/-- The top-off test on a step: the flag is set, and a cap that falls below the gate's intended setting is met by a
reduce order (R135, R116). -/
def topOff (n : Word16) (s : State) : State :=
  match findStep s n with
  | none => s
  | some r =>
    if r.topOffDue then
      let t := updateStep n (fun q => { q with inTopOff := true }) s
      let before := capOfStep s r
      let after := capOfStep t { r with inTopOff := true }
      if after.val < before.val then reduceTo r.spout after t else t
    else s

/-! ## Activation (R128 to R131) -/

/-- Conditions 3 to 5 of R128 with the run state: RUN, the spout settled over the step's hold, the pour not blocked,
the gate not UNSURE. -/
def mayPour (s : State) (r : StepRec) : Bool :=
  s.runc.state == .run && settledOver s r.spout r.hold && !blocked s r.spout
    && (s.gates.get r.spout).state != .rest .unsure

/-- What follows the step's becoming ACTIVE: the top-off test and an AUTO step's open order (R129 steps 2 and 3, R131). -/
def poursNow (r : StepRec) (s : State) : State :=
  let s := topOff r.number s
  if r.openBy = .auto then openAtCap r.spout s else s

/-- A WAITING step becomes ACTIVE (R129): it becomes its spout's account step. -/
def activate (r : StepRec) (s : State) : State :=
  poursNow r ((setStepState r.number .active s).withAccount (s.account.set r.spout (some r.number)))

/-- A HELD step becomes ACTIVE again (R131). -/
def returnActive (r : StepRec) (s : State) : State := poursNow r (setStepState r.number .active s)

/-- PSEQ's test of one spout's running step (R128, R131, R133): a WAITING step complete already becomes DONE, a
WAITING or HELD step whose conditions hold becomes ACTIVE. The mark says whether a step became DONE. -/
def testSpout (sp : Spout) (s : State) : State × Bool :=
  match runningStep s sp with
  | none => (s, false)
  | some r =>
    if r.state = .waiting then
      if r.complete then (enterDone r s, true)
      else if mayPour s r && afterSatisfied s r then (activate r s, false)
      else (s, false)
    else if r.state = .held then
      if mayPour s r then (returnActive r s, false) else (s, false)
    else (s, false)

/-- The activation test of each fitted spout, A first, again while it made a step DONE (R128, R134 step 6). Each round
that goes on has finished a step, and the two latches can add two, so the plan's length and three rounds suffice. -/
def activationRounds : Nat → State → State
  | 0, s => s
  | fuel + 1, s =>
    let x := testSpout .a s
    let y := testSpout .b x.1
    if x.2 || y.2 then activationRounds fuel y.1 else y.1

/-- The activation test at the end of an event (R128). -/
def activationTest (s : State) : State := activationRounds (s.plan.length + 3) s

/-- A HELD step whose spout's current zone is no HOLD zone of its hold becomes WAITING (R132). -/
def leaveHold (sp : Spout) (s : State) : State :=
  match pouringStep s sp with
  | some r => if r.state = .held ∧ currentHold s sp ≠ some r.hold then setStepState r.number .waiting s else s
  | none => s

end Sys2Proof.Machine
end

