-- ==== Sys2Proof/Machine/Travel.lean ====
section
/-! DEFINITION. TCU: membership, the MOVE check sequence, acceptance and its undoing, position answers, LOST, overreach
(chapter 4). -/

namespace Sys2Proof.Machine

/-! ## Zones -/

/-- A position lies inside a zone's loaded limits on all four axes; slew is signed (R56). -/
def inside (p : Position) (z : Zone) : Bool :=
  (z.box.railMin.toNat ≤ p.rail.toNat && p.rail.toNat ≤ z.box.railMax.toNat)
    && (z.box.slewMin.toInt ≤ p.slew.toInt && p.slew.toInt ≤ z.box.slewMax.toInt)
    && (z.box.reachMin.toNat ≤ p.reach.toNat && p.reach.toNat ≤ z.box.reachMax.toNat)
    && (z.box.lowerMin.toNat ≤ p.lower.toNat && p.lower.toNat ≤ z.box.lowerMax.toNat)

/-- A HOLD zone over a hold at TRIP: the hold. -/
def trippedHold (s : State) (z : Zone) : Option Hold :=
  match z.holdOf with
  | some h => if s.holdDust[h] = .trip then some h else none
  | none => none

/-- The effective level: the larger number of the requester level and the console level (R59). -/
def effectiveLevel (s : State) (level : Level) : Level := if level.val ≤ s.console.val then s.console else level

/-- Checks 3 to 7 of R63 on a target index; the answer is its table index. -/
def admitZone (s : State) (target : Byte) (eff : Level) : Except (Code × Byte) ZoneIx :=
  if target = 0 then .error (.nullZone, 0)
  else
    match zoneIx? target with
    | none => .error (.zoneLimit, target)
    | some i =>
      if s.zones.limit ≤ i.val then .error (.zoneLimit, target)
      else if (s.zone i).zoneType = .route then .error (.zoneType, target)
      else if (s.zone i).level.val < eff.val then .error (.zoneLevel, target)
      else if !(s.zone i).present then .error (.zoneAbsent, target)
      else .ok i

/-- The first axis whose target lies outside the zone's effective limits (R65 check 9). -/
def axisOutside (s : State) (z : Zone) (m : MoveFields) : Option Byte :=
  if m.rail.toNat < z.box.railMin.toNat ∨ z.box.railMax.toNat < m.rail.toNat then some 0
  else if m.slew.toInt < z.box.slewMin.toInt ∨ z.box.slewMax.toInt < m.slew.toInt then some 1
  else if m.reach.toNat < z.box.reachMin.toNat ∨ z.box.reachMax.toNat < m.reach.toNat then some 2
  else if m.lower.toNat < z.box.lowerMin.toNat ∨ (effLowerMax s z).toNat < m.lower.toNat then some 3
  else none

/-- Check 12: the route entry permits the journey (R66); the answer is the first failure. -/
def routeFault (s : State) (route : Byte) (eff : Level) (fromZone toZone : ZoneIx) : Option (Code × Byte) :=
  if route = 0 then some (.routeNone, 0)
  else
    match zoneIx? route with
    | none => some (.routeLimit, route)
    | some i =>
      if s.zones.limit ≤ i.val then some (.routeLimit, route)
      else if (s.zone i).zoneType ≠ .route then some (.routeType, route)
      else if (s.zone i).level.val < eff.val then some (.routeLevel, route)
      else if !(s.zone i).present then some (.routeAbsent, route)
      else if (s.zone i).fromZone.toNat ≠ fromZone.val ∨ (s.zone i).toZone.toNat ≠ toZone.val then
        some (.routeMismatch, route)
      else none

/-- Check 14: the target is claimed by the other spout (R67). -/
def claimedByOther (s : State) (sp : Spout) (i : ZoneIx) : Bool := (s.zone i).owner == some (otherSpout sp)

/-- Checks 9 to 15 of a MOVE that is no recovery move (R65 to R67). -/
def normalMoveCheck (s : State) (m : MoveFields) (eff : Level) (i : ZoneIx) : Except (Code × Byte) MoveClass :=
  let r := s.spouts.get m.spout
  match axisOutside s (s.zone i) m with
  | some axis => .error (.outOfZone, axis)
  | none =>
    if r.state = .moving ∧ i ≠ r.target then .error (.spoutMoving, byteOfNat r.target.val)
    else if i ≠ r.current then
      if (s.gates.get m.spout).state ≠ .rest .closed then .error (.gateOpen, m.spout.byte)
      else if (activeStep s m.spout).isSome then .error (.stepActive, m.spout.byte)
      else
        match routeFault s m.route eff r.current i with
        | some e => .error e
        | none =>
          match trippedHold s (s.zone i) with
          | some h => .error (.dustTrip, holdByte h)
          | none => if claimedByOther s m.spout i then .error (.zoneClaimed, m.target) else .ok .zoneChange
    else if claimedByOther s m.spout i then .error (.zoneClaimed, m.target)
    else
      match trippedHold s (s.zone r.current) with
      | some h => if r.position.lower.toNat < m.lower.toNat then .error (.dustTrip, holdByte h) else .ok .sameZone
      | none => .ok .sameZone

/-- Check 8 and check 14 of a MOVE for a LOST spout or one on a recovery move (R64). -/
def recoveryMoveCheck (s : State) (m : MoveFields) (eff : Level) (i : ZoneIx) : Except (Code × Byte) MoveClass :=
  let r := s.spouts.get m.spout
  if eff ≠ 0 then .error (.spoutLost, m.spout.byte)
  else if r.state = .moving ∧ i ≠ r.target then .error (.spoutMoving, byteOfNat r.target.val)
  else if claimedByOther s m.spout i then .error (.zoneClaimed, m.target)
  else .ok .recovery

/-- The MOVE check sequence (R63 to R67): the class and the target's index of a MOVE that passes. -/
def moveCheck (s : State) (m : MoveFields) : Except (Code × Byte) (MoveClass × ZoneIx) :=
  let r := s.spouts.get m.spout
  let eff := effectiveLevel s m.level
  if s.runc.state = .config then .error (.notRunning, 0)
  else if s.runc.state = .halt then .error (.halted, 0)
  else if r.state = .unknown then .error (.spoutUnknown, m.spout.byte)
  else
    match admitZone s m.target eff with
    | .error e => .error e
    | .ok i =>
      let checked :=
        if r.state = .lost ∨ (r.state = .moving ∧ r.recovery) then recoveryMoveCheck s m eff i
        else normalMoveCheck s m eff i
      match checked with
      | .error e => .error e
      | .ok cls => .ok (cls, i)

/-! ## Making a change known (R62, R77, R78) -/

/-- The overreach test (R78). -/
def overreachTest (s : State) (sp : Spout) : Bool :=
  let r := s.spouts.get sp
  let z := s.zone r.current
  r.state == .settled && z.zoneType == .hold && r.posValid && decide ((effLowerMax s z).toNat < r.position.lower.toNat)

/-- The overreach flag takes the test's value. -/
def testOverreach (sp : Spout) (s : State) : State :=
  setSpout sp { s.spouts.get sp with overreach := overreachTest s sp } s

/-- What GATE, PSEQ and RELAY read of a spout record (R62). -/
def spoutView (s : State) (sp : Spout) : Bool × Bool × Bool × ZoneIx :=
  let r := s.spouts.get sp
  (r.state == .lost, r.state == .settled, r.overreach, r.current)

/-- A QUEUED MOVE entry of the spout (R49). -/
def isMoveOf (sp : Spout) (e : RelayEntry) : Bool :=
  match e.body with
  | .move m _ _ => m.spout == sp
  | _ => false

/-- The spout was not LOST in `before` and is now (R77). -/
def enteredLost (before s : State) (sp : Spout) : Bool :=
  (before.spouts.get sp).state != .lost && (s.spouts.get sp).state == .lost

/-- The changes of a spout record since `before` are made known (R62): at an entry to LOST the ORDER_STOP, the MOVE
entries answered SPOUT_LOST (their withdrawal changes nothing, since the spout is LOST), then GATE's evaluation, the
notices, and a HELD step that its spout left (R77, R78, R132). -/
def tellSpout (before : State) (sp : Spout) (s : State) : State :=
  if spoutView before sp = spoutView s sp then s
  else
    let lost := enteredLost before s sp
    let deep := !(before.spouts.get sp).overreach && (s.spouts.get sp).overreach
    let s := if lost then preempt (isMoveOf sp) .spoutLost sp.byte (postStop sp s) else s
    let s := evaluateBlock (blocked before sp) sp s
    let s := if lost then setNotice .spoutLost (subjectSpout sp) s else s
    let s := if deep then setNotice .clearance (subjectSpout sp) s else s
    leaveHold sp s

/-- Both spouts' changes are made known, A first, and the activation test ends the event (R62, R107, R128). -/
def tcuKnown (before s : State) : State :=
  let t := tellSpout before .b (tellSpout before .a s)
  if spoutView before .a = spoutView s .a ∧ spoutView before .b = spoutView s .b then t else activationTest t

/-! ## Acceptance and its undoing (R68, R69) -/

/-- Whether the acceptance takes a new claim (R68). -/
def takesClaim (s : State) (sp : Spout) (cls : MoveClass) (i : ZoneIx) : Bool :=
  cls != .sameZone && (s.zone i).owner != some sp

/-- An accepted MOVE (R68). -/
def acceptMove (sp : Spout) (cls : MoveClass) (i : ZoneIx) (s : State) : State :=
  match cls with
  | .sameZone => s
  | .zoneChange | .recovery =>
    let r := s.spouts.get sp
    let t := claimZone sp i s
    let t := setSpout sp { r with state := .moving, target := i, recovery := cls == .recovery } t
    tcuKnown s (testOverreach sp t)

/-- The target claim is released, unless the target is the current zone; the target zone becomes 0 (R69, R73, R76). -/
def dropTarget (sp : Spout) (s : State) : State :=
  let r := s.spouts.get sp
  let s := if r.target = r.current then s else releaseZone sp r.target s
  setSpout sp { r with target := 0 } s

/-- The acceptance is undone, where the spout is MOVING to this target (R69): SETTLED, or LOST again from a recovery
move, its cause kept. -/
def undoMove (sp : Spout) (target : Byte) (s : State) : State :=
  let r := s.spouts.get sp
  if r.state = .moving ∧ r.target.val = target.toNat then
    let t := dropTarget sp s
    let q := t.spouts.get sp
    let t := setSpout sp { q with state := if r.recovery then .lost else .settled, recovery := false } t
    tcuKnown s (testOverreach sp t)
  else s

/-! ## Position answers (R70 to R76) -/

/-- A zone an UNKNOWN spout may be placed in (R71). -/
def searchable (s : State) (sp : Spout) (p : Position) (i : ZoneIx) : Bool :=
  let z := s.zone i
  decide (i.val < s.zones.limit) && z.present && z.zoneType != .route && inside p z
    && (z.owner == none || z.owner == some sp)

/-- The first zone, in ascending index, an UNKNOWN spout may be placed in (R71). -/
def searchZone (s : State) (sp : Spout) (p : Position) : Option ZoneIx :=
  (List.finRange 64).find? (searchable s sp p)

def becomeLost (sp : Spout) (c : LostCause) (s : State) : State :=
  setSpout sp { s.spouts.get sp with state := .lost, recovery := false, lostCause := some c } s

/-- The spout arrives in its target: the claim on another current zone is released (R73, R74). -/
def arrive (sp : Spout) (s : State) : State :=
  let r := s.spouts.get sp
  let s := if r.current = r.target then s else releaseZone sp r.current s
  setSpout sp { r with state := .settled, current := r.target, target := 0, recovery := false, lostCause := none } s

/-- The state-specific handling of a valid position (R71 to R75). -/
def placeSpout (sp : Spout) (p : Position) (s : State) : State :=
  let r := s.spouts.get sp
  match r.state with
  | .unknown =>
    match searchZone s sp p with
    | some i => setSpout sp { r with state := .settled, current := i } (claimZone sp i s)
    | none => becomeLost sp .noZone s
  | .settled => if inside p (s.zone r.current) then s else becomeLost sp .breach s
  | .moving =>
    if inside p (s.zone r.target) then arrive sp s
    else if r.recovery then s
    else if inside p (s.zone r.current) then s
    else becomeLost sp .breach (dropTarget sp s)
  | .lost =>
    if r.current ≠ 0 ∧ inside p (s.zone r.current) then setSpout sp { r with state := .settled, lostCause := none } s
    else s

/-- A valid position answer (R70): the position, flags and missed count, the state's handling, the overreach test, and
the changes made known. -/
def positionAnswer (sp : Spout) (p : Position) (flags : Byte) (s : State) : State :=
  let t := setSpout sp { s.spouts.get sp with position := p, posValid := true, driveFlags := flags, missed := 0 } s
  tcuKnown s (testOverreach sp (placeSpout sp p t))

/-- A missed poll (R76): the count goes up to at most 3; at 3 a spout that is not LOST becomes LOST with cause STALE. -/
def missedPoll (sp : Spout) (s : State) : State :=
  let r := s.spouts.get sp
  let n := if 3 ≤ r.missed then 3 else r.missed + 1
  let t := setSpout sp { r with missed := n } s
  if n = 3 ∧ r.state ≠ .lost then
    let t := if r.state = .moving then dropTarget sp t else t
    tcuKnown s (testOverreach sp (becomeLost sp .stale t))
  else t

end Sys2Proof.Machine
end

