-- ==== Sys2Proof/Machine/Relay.lean ====
section
/-! DEFINITION. RELAY's checks and removals (chapter 3). -/

namespace Sys2Proof.Machine

/-! ## The map checks 3, 4 and 5 of R38, run at arrival and again at dispatch (R40) -/

/-- What a relay frame asks, as the checks see it. -/
inductive RelayAsk
  | move (m : MoveFields)
  | gate (g : GateFields)
  | plain
  deriving DecidableEq, Repr

/-- Check 4: the first subject, 1 station kind, 2 wrong spout, 3 spout not fitted. -/
def unsuited (s : State) (x : Station) (kind : StationKind) (sp : Spout) : Option Byte :=
  if x.kind ≠ kind then some 1
  else if x.unit ≠ sp.byte then some 2
  else if !fitted s sp then some 3
  else none

/-- Checks 3, 4 and 5 (R38). -/
def mapCheck (s : State) (dest : Byte) (ask : RelayAsk) : Option (Code × Byte) :=
  match stationAt s dest with
  | none => some (.noStation, dest)
  | some x =>
    if !x.present then some (.noStation, dest)
    else
      match ask with
      | .move m => (unsuited s x .spoutDrive m.spout).map fun j => (.wrongKind, j)
      | .gate g => (unsuited s x .feedGate g.spout).map fun j => (.wrongKind, j)
      | .plain =>
        if x.kind = .spoutDrive ∨ x.kind = .feedGate then some (.wrongKind, 1)
        else if x.relayClass = .blocked then some (.relayBlocked, dest)
        else none

/-- Check 6: the run state admits a MOVE or a GATE above 0 only in RUN (R38). -/
def runStateCheck (s : State) (ask : RelayAsk) : Option (Code × Byte) :=
  let bound :=
    match ask with
    | .move _ => true
    | .gate g => g.setting != 0
    | .plain => false
  if !bound then none
  else
    match s.runc.state with
    | .config => some (.notRunning, 0)
    | .run => none
    | .halt => some (.halted, 0)

/-- Checks 1 to 6 of R38, in order. -/
def arrivalCheck (s : State) (tag dest : Byte) (ask : RelayAsk) : Option (Code × Byte) :=
  if Config.relayPlaces ≤ s.relayQueue.length then some (.relayFull, 8)
  else if s.relayQueue.any fun e => e.tag == tag then some (.tagInUse, tag)
  else
    match mapCheck s dest ask with
    | some e => some e
    | none => runStateCheck s ask

/-- An entry joins the tail in state QUEUED; its frame's output place stays reserved (R37, R39, R11). -/
def appendEntry (tag dest : Byte) (body : RelayBody) (s : State) : State :=
  (s.withRelayQueue (s.relayQueue ++ [{ tag, dest, body, onLine := false }])).withSport
    { s.sport with reserved := s.sport.reserved ++ [tag] }

/-- A relay frame is refused at arrival (R38, R50). -/
def refuseArrival (tag kind : Byte) (e : Code × Byte) (s : State) : State :=
  pushReady (refusalAnswer tag e.1 e.2 kind) s

/-- A MOVE's arrival (R38, R39): refused, or accepted by the TCU and queued. -/
def moveArrival (tag dest : Byte) (m : MoveFields) (s : State) : State :=
  match arrivalCheck s tag dest (.move m) with
  | some e => refuseArrival tag kindMove e s
  | none =>
    match moveCheck s m with
    | .error e => refuseArrival tag kindMove e s
    | .ok (cls, i) => appendEntry tag dest (.move m cls (takesClaim s m.spout cls i)) (acceptMove m.spout cls i s)

/-- The provisional or final values of a GATE entry: forwarded setting and trimmed mark (R39, R42). -/
def gateBody (g : GateFields) (c : Setting) : RelayBody :=
  .gate g (forwardedSetting g.setting c) (decide (c.val < g.setting.val))

/-- A GATE's arrival (R38, R39): a setting of 0 passes with no further check. -/
def gateArrival (tag dest : Byte) (g : GateFields) (s : State) : State :=
  match arrivalCheck s tag dest (.gate g) with
  | some e => refuseArrival tag kindGate e s
  | none =>
    if g.setting = 0 then appendEntry tag dest (.gate g 0 false) s
    else
      match gateCheck s g.spout with
      | .error e => refuseArrival tag kindGate e s
      | .ok c => appendEntry tag dest (gateBody g c) s

/-- A PLAIN's arrival (R38, R39). -/
def plainArrival (tag dest : Byte) (data : List Byte) (s : State) : State :=
  match arrivalCheck s tag dest .plain with
  | some e => refuseArrival tag kindPlain e s
  | none => appendEntry tag dest (.plain data) s

/-! ## The dispatch recheck (R40 to R42) -/

/-- Check 1 of R41: the target the entry was accepted for still stands. -/
def targetStands (r : SpoutRec) (cls : MoveClass) (target : Byte) : Bool :=
  match cls with
  | .sameZone => r.current.val == target.toNat
  | .zoneChange | .recovery =>
    (r.state == .moving && r.target.val == target.toNat) || (r.state == .settled && r.current.val == target.toNat)

/-- Checks 1 and 2 of R41. -/
def moveRecheck (s : State) (m : MoveFields) (cls : MoveClass) : Option (Code × Byte) :=
  let r := s.spouts.get m.spout
  if !targetStands r cls m.target then some (.targetDropped, m.target)
  else
    match cls with
    | .recovery => none
    | .zoneChange =>
      ((zoneIx? m.target).bind fun i => trippedHold s (s.zone i)).map fun h => (.dustTrip, holdByte h)
    | .sameZone =>
      match trippedHold s (s.zone r.current) with
      | some h => if r.position.lower.toNat < m.lower.toNat then some (.dustTrip, holdByte h) else none
      | none => none

def RelayBody.ask : RelayBody → RelayAsk
  | .move m _ _ => .move m
  | .gate g _ _ => .gate g
  | .plain _ => .plain

/-- The recheck of a QUEUED entry (R40 to R42): the body that goes on the line, or the reason and subject. A GATE whose
request was 0 goes out as 0, untrimmed (R111); one above 0 is checked and limited again by the cap in force, also where
the cap at its arrival was 0 (R39, R113, log 10). -/
def dispatchCheck (s : State) (e : RelayEntry) : Except (Code × Byte) RelayBody :=
  match mapCheck s e.dest e.body.ask with
  | some x => .error x
  | none =>
    match e.body with
    | .plain d => .ok (.plain d)
    | .move m cls c =>
      match moveRecheck s m cls with
      | some x => .error x
      | none => .ok (.move m cls c)
    | .gate g _ _ =>
      if g.setting = 0 then .ok (.gate g 0 false)
      else
        match gateCheck s g.spout with
        | .error x => .error x
        | .ok c => .ok (gateBody g c)

/-! ## Withdrawal (R44) and preemption at HALT (R48) -/

/-- The removal of a QUEUED entry is reported to the TCU: a MOVE that holds the new claim is undone (R44). -/
def withdrawMove (e : RelayEntry) (s : State) : State :=
  match e.body with
  | .move m _ true => undoMove m.spout m.target s
  | _ => s

/-- A QUEUED entry HALT entry removes: every MOVE and every GATE above 0 (R48). -/
def haltRemoves (e : RelayEntry) : Bool :=
  match e.body with
  | .move _ _ _ => true
  | .gate g _ _ => g.setting != 0
  | .plain _ => false

/-- Removal at HALT entry: all are answered HALTED first, then the MOVE removals are reported in queue order (R48). -/
def preemptHalted (s : State) : State :=
  (s.relayQueue.filter fun e => !e.onLine && haltRemoves e).foldl (fun t e => withdrawMove e t)
    (preempt haltRemoves .halted 0 s)

end Sys2Proof.Machine
end

