-- ==== Sys2Proof/Machine/Runs.lean ====
section
/-! DEFINITION. RUNC's HALT entry (R179) and the failed close order (R106, R180). -/

namespace Sys2Proof.Machine

/-- Step 3 of HALT entry for one spout: a close order unless the gate is CLOSED with none waiting, whether or not the
pour was blocked already; PSEQ holds the ACTIVE step where the block begins with this entry. -/
def haltSpout (before : State) (sp : Spout) (s : State) : State :=
  if fitted s sp then
    let s := closeUnlessClosed sp s
    if blocked before sp then s else holdStep sp s
  else s

/-- HALT entry, in the order of R179. -/
def haltEntry (cause : HaltCause) (s : State) : State :=
  let t := s.withRunc { state := .halt, haltCause := some cause, allStop := s.runc.allStop }
  let t := postAllStop t
  let t := t.withRunc { t.runc with allStop := some .pending }
  let t := haltSpout s .b (haltSpout s .a t)
  setNotice .halted (subjectByte cause.byte) (preemptHalted t)

/-- RUNC is told that a close order failed (R180): HALT entry with cause 2 from RUN; a part in HALT keeps its state.
Orders are posted in RUN and HALT alone, so CONFIG is not met. -/
def closeFailed (s : State) : State := if s.runc.state = .run then haltEntry .gateFailure s else s

/-- A gate order ends FAILED (R106): UNSURE and GATE_UNSURE; a close tells RUNC, any other posts a close; the change of
the record is made known to PSEQ (R103). -/
def gateOrderFailed (sp : Spout) (x : Setting) (s : State) : State :=
  let s := setNotice .gateUnsure (subjectSpout sp) (setGate sp { s.gates.get sp with state := .rest .unsure } s)
  let s := if x = 0 then closeFailed s else postClose sp s
  activationTest s

/-- The rest state of a confirmed setting: CLOSED at 0, else OPEN (R105, R106). -/
def confirmedRest (x : Setting) : GateRest := if x = 0 then .closed else .opened

/-- A setting is answered OK: the record confirms it, and the change is made known to PSEQ (R103, R105, R106). -/
def confirmGate (sp : Spout) (x : Setting) (s : State) : State :=
  activationTest (setGate sp { state := .rest (confirmedRest x), confirmed := x } s)

/-- A relayed GATE ends in failure: the record returns to its prior state (R105). -/
def relayGateFailed (sp : Spout) (s : State) : State :=
  match (s.gates.get sp).state with
  | .changing _ (.relay prior) => activationTest (setGate sp { s.gates.get sp with state := .rest prior } s)
  | _ => s

end Sys2Proof.Machine
end

