-- ==== Sys2Proof/Machine/Dust.lean ====
section
/-! DEFINITION. DMON: sample levels, the head state machine, hold dust states, the sample cycle (chapter 5). -/

namespace Sys2Proof.Machine

/-! ## One head (R91 to R98) -/

/-- The level of a sample: the highest threshold it reaches; `quiet` stands for none (R91). -/
def sampleLevel (h : Head) (c : Word16) : Dust :=
  if h.trip.toNat ≤ c.toNat then .trip
  else if h.alarm.toNat ≤ c.toNat then .alarm
  else if h.watch.toNat ≤ c.toNat then .watch
  else .quiet

/-- Rise counting on a head in state `d` (R93). -/
def riseCount (d : Dust) (c : Word16) (h : Head) : Head :=
  let lv := sampleLevel h c
  if d.rank < lv.rank then
    let rl := if h.riseCount = 0 then lv else Dust.min h.riseLevel lv
    if h.riseCount + 1 = h.persistence.toNat then
      { h with state := .live rl, riseCount := 0, riseLevel := rl, fallCount := 0 }
    else { h with riseCount := h.riseCount + 1, riseLevel := rl }
  else { h with riseCount := 0 }

/-- A sample below the fall point, the threshold less the hysteresis (R91). -/
def belowFallPoint (threshold hysteresis c : Word16) : Bool := c.toNat + hysteresis.toNat < threshold.toNat

/-- Fall counting on a head in WATCH or ALARM, whose level below is `down` (R94). -/
def fallCount (threshold : Word16) (down : Dust) (c : Word16) (h : Head) : Head :=
  if belowFallPoint threshold h.hysteresis c then
    if h.fallCount + 1 = h.persistence.toNat then
      { h with state := .live down, riseCount := 0, fallCount := 0 }
    else { h with fallCount := h.fallCount + 1 }
  else { h with fallCount := 0 }

/-- A valid sample judged by the head's state (R92): a SILENT head is judged again in QUIET (R98); TRIP judges
nothing (R95). Fall counting runs where rise counting left the state as it was; a sample that rises the head is
below no fall point (R94). -/
def judgeSample (c : Word16) (h : Head) : Head :=
  match h.state with
  | .live .quiet => riseCount .quiet c h
  | .live .watch =>
    let g := riseCount .watch c h
    if g.state = .live .watch then fallCount g.watch .quiet c g else g
  | .live .alarm =>
    let g := riseCount .alarm c h
    if g.state = .live .alarm then fallCount g.alarm .watch c g else g
  | .live .trip => h
  | .silent => riseCount .quiet c { h with state := .live .quiet, riseCount := 0, fallCount := 0 }

/-- A valid sample: the latest sample, the miss count cleared, then the judgement (R92). -/
def validSample (c : Word16) (h : Head) : Head :=
  judgeSample c { h with sample := c, sampleValid := true, missCount := 0 }

/-- Whether this miss raises the count from 1 to 2 (R97). -/
def secondMiss (h : Head) : Bool := h.missCount == 1

/-- A miss (R97): the sample invalid, the count up to 2; at the second miss a head not in TRIP becomes SILENT. -/
def missSample (h : Head) : Head :=
  let g := { h with sampleValid := false, missCount := if 2 ≤ h.missCount then 2 else h.missCount + 1 }
  if secondMiss h ∧ h.state ≠ .live .trip then { g with state := .silent, riseCount := 0, fallCount := 0 } else g

/-! ## Hold dust states (R99 to R101) -/

/-- A head counts for a hold: present, and of that hold or of the quay. -/
def Head.countsFor (x : Head) (h : Hold) : Bool := x.present && (x.hold == none || x.hold == some h)

/-- The highest state among the heads that count for a hold, QUIET if there are none (R99). -/
def derivedDust (s : State) (h : Hold) : Dust :=
  (s.heads.toList.filter fun x => x.countsFor h).foldl (fun d x => Dust.max d x.state.counts) .quiet

/-- A change of a head's state recomputes its hold, or every hold for a quay head (R99). -/
def recomputeHolds (x : Head) (s : State) : State :=
  s.withHoldDust
    (Vector.ofFn fun h : Hold => if x.hold == none || x.hold == some h then derivedDust s h else s.holdDust[h])

/-- The notice of one hold's rise (R100). -/
def holdNotice (before : State) (h : Hold) (s : State) : State :=
  if (before.holdDust[h]).rank < (s.holdDust[h]).rank then
    match s.holdDust[h] with
    | .trip => setNotice .dustTrip (subjectByte (holdByte h)) s
    | .alarm => setNotice .dustAlarm (subjectByte (holdByte h)) s
    | _ => s
  else s

/-- The hold of the spout's current zone rose from QUIET or WATCH to ALARM (R100, R116). -/
def roseToAlarm (before s : State) (sp : Spout) : Bool :=
  match currentHold s sp with
  | some h => s.holdDust[h] == .alarm && (before.holdDust[h] == .quiet || before.holdDust[h] == .watch)
  | none => false

/-- The reduce order at an ALARM rise (R116): the alarm cap in use is below the ACTIVE step's base. -/
def alarmReduce (before : State) (sp : Spout) (s : State) : State :=
  if fitted s sp && roseToAlarm before s sp then
    match activeStep s sp with
    | some r => if (capOfStep s r).val < (capOfStep before r).val then reduceTo sp (capOfStep s r) s else s
    | none => s
  else s

/-- GATE's work for one spout at a change of hold dust states (R107, R116). -/
def dustSpout (before : State) (sp : Spout) (s : State) : State :=
  alarmReduce before sp (evaluateBlock (blocked before sp) sp s)

/-- Changed hold dust states are made known (R100, R101): the notices in ascending hold number, GATE's work for A and
then B, and PSEQ's tests. -/
def dustKnown (before s : State) : State :=
  if s.holdDust = before.holdDust then s
  else
    let t := (List.finRange 9).foldl (fun t h => holdNotice before h t) s
    activationTest (dustSpout before .b (dustSpout before .a t))

def setHead (i : HeadIx) (h : Head) (s : State) : State := s.withHeads (s.heads.set i.val h)

/-- A head takes new fields; a change of its state is carried to the hold dust states and made known (R99). -/
def changeHead (i : HeadIx) (h : Head) (s : State) : State :=
  let t := setHead i h s
  if h.state = (s.heads[i]).state then t else dustKnown s (recomputeHolds h t)

/-! ## The sample cycle (R85 to R88) -/

/-- The present head of lowest index not yet sampled in this cycle (R86). -/
def nextHead (s : State) : Option HeadIx :=
  (List.finRange 16).find? fun i => (s.heads[i]).present && !(s.heads[i]).sampled

/-- The dust poll of a head is asked for, and the head is pending (R86). -/
def askDust (i : HeadIx) (s : State) : State :=
  pollDue { station := (s.heads[i]).station, kind := .dust i } (s.withCycle { s.cycle with pendingHead := some i })

/-- Steps 1 to 4 of a cycle start (R85). -/
def openCycle (s : State) : State :=
  (s.withHeads (mapTable (fun h => { h with sampled := false }) s.heads)).withCycle
    { state := .cycling, pendingHead := none, overrun := false, timer := some s.settings.inUse.cyclePeriod.toNat }

/-- A cycle starts (R85); with no head present it ends at once, its latch clear (R87). -/
def startCycle (s : State) : State :=
  match nextHead (openCycle s) with
  | some i => askDust i (openCycle s)
  | none => (openCycle s).withCycle { (openCycle s).cycle with state := .idle }

/-- A cycle ends (R87). -/
def endCycle (s : State) : State :=
  if s.cycle.overrun then startCycle s else s.withCycle { s.cycle with state := .idle }

/-- The next pending head is chosen, or the cycle ends (R86 step 4). -/
def nextInCycle (s : State) : State :=
  match nextHead s with
  | some i => askDust i s
  | none => endCycle s

/-- The pending head's poll has ended (R86 step 1). -/
def markSampled (i : HeadIx) (s : State) : State :=
  setHead i { s.heads[i] with sampled := true } (s.withCycle { s.cycle with pendingHead := none })

/-- The outcome of a dust poll on its head (R86 steps 2 and 3): a valid concentration, or a miss. -/
def applyOutcome (i : HeadIx) (outcome : Option Word16) (s : State) : State :=
  match outcome with
  | some c => changeHead i (validSample c s.heads[i]) s
  | none =>
    changeHead i (missSample s.heads[i])
      (if secondMiss s.heads[i] then setNotice .fieldSilent (subjectByte (s.heads[i]).station) s else s)

/-- The report of a head's dust poll (R86). -/
def dustReport (i : HeadIx) (outcome : Option Word16) (s : State) : State :=
  nextInCycle (applyOutcome i outcome (markSampled i s))

/-- The cycle timer reloads the period in use (R88). -/
def reloadCycle (s : State) : State := s.withCycle { s.cycle with timer := some s.settings.inUse.cyclePeriod.toNat }

/-- The subject of DUST_OVERRUN: the pending head's index. While CYCLING a head is pending (R86); otherwise 0 (log 18). -/
def overrunSubject (s : State) : Word16 :=
  match s.cycle.pendingHead with
  | some i => BitVec.ofNat 16 i.val
  | none => 0

/-- The cycle timer expires (R88): it reloads, and starts a cycle or marks the overrun. A cycle start reloads it again. -/
def cycleExpiry (s : State) : State :=
  match s.cycle.state with
  | .idle => startCycle (reloadCycle s)
  | .cycling =>
    setNotice .dustOverrun (overrunSubject s) ((reloadCycle s).withCycle { (reloadCycle s).cycle with overrun := true })

end Sys2Proof.Machine
end

