-- ==== Sys2Proof/Machine/Weighing.lean ====
section
/-! DEFINITION. WBILL's scale answers: baselines, deltas, crediting and placing tonnage (R153 to R160, R137). -/

namespace Sys2Proof.Machine

def setBaseline (sp : Spout) (b : Baseline) (s : State) : State := s.withBaselines (s.baselines.set sp b)

/-- Both baselines become invalid, their values kept (R153). -/
def invalidateBaselines (s : State) : State :=
  s.withBaselines { a := { s.baselines.a with valid := false }, b := { s.baselines.b with valid := false } }

/-- A poured amount grows and stays at 4294967295 (R121). -/
def satAdd32 (x d : Word32) : Word32 := if 4294967295 < x.toNat + d.toNat then 0xFFFFFFFF#32 else x + d

/-- A delta is credited to the spout's account step (R137): the amount, then completion, or top-off while ACTIVE. The
mark says whether the step became DONE. -/
def creditStep (sp : Spout) (d : Word32) (s : State) : State × Bool :=
  match s.account.get sp with
  | none => (s, false)
  | some n =>
    let s := updateStep n (fun r => { r with poured := satAdd32 r.poured d }) s
    match findStep s n with
    | none => (s, false)
    | some r =>
      if (r.state = .waiting ∨ r.pouring) ∧ r.complete then (enterDone r s, true)
      else if r.state = .active then (topOff n s, false)
      else (s, false)

/-- An amount of a bill grows with the bill's total, both modulo 2^32 (R159, R160). -/
def Bill.addHold (b : Bill) (h : Hold) (d : Word32) : Bill :=
  { b with holds := b.holds.set h.val (b.holds[h] + d), total := b.total + d }

def Bill.addUnplaced (b : Bill) (d : Word32) : Bill :=
  { b with unplaced := b.unplaced + d, total := b.total + d }

/-- A plausible delta is placed in exactly one of the accounts (R159). -/
def placeDelta (sp : Spout) (d : Word32) (s : State) : State :=
  match openSlot s with
  | some _ =>
    match currentHold s sp with
    | some h => updateOpenBill (fun b => b.addHold h d) s
    | none => setNotice .strayFlow (subjectSpout sp) (updateOpenBill (fun b => b.addUnplaced d) s)
  | none => setNotice .strayFlow (subjectSpout sp) (s.withUnbilled (s.unbilled + d))

/-- A plausible delta is attributed: first the account step, then the accounts; the activation test that a DONE step
calls for ends the event (R158, R134 step 6). -/
def attributeDelta (sp : Spout) (d : Word32) (s : State) : State :=
  let c := creditStep sp d s
  let t := placeDelta sp d c.1
  if c.2 then activationTest t else t

/-- A scale poll's report (R154 to R156): `none` is a FAULT answer or no answer. -/
def scaleReport (sp : Spout) (outcome : Option Word32) (s : State) : State :=
  match outcome with
  | none => s
  | some v =>
    let b := s.baselines.get sp
    if !b.valid then setBaseline sp { value := v, valid := true } s
    else
      let d := v - b.value
      if d = 0 then s
      else
        let t := setBaseline sp { value := v, valid := true } s
        if d.toNat ≤ s.settings.inUse.maxDelta.toNat then attributeDelta sp d t
        else setNotice .scaleJump (subjectSpout sp) t

end Sys2Proof.Machine
end

