-- ==== Sys2Proof/Machine/FieldLine.lean ====
section
/-! DEFINITION. FLM: starting and ending transactions, retries, the arbiter (chapter 2), and the ends of relays (R45,
R46). -/

namespace Sys2Proof.Machine

/-! ## Starting a transaction (R16, R17, R6) -/

def setEngine (e : Engine) (s : State) : State := s.withLine { s.line with engine := e }

/-- The engine fills the record, takes a field tag, builds the frame and enters SENDING. -/
def startTransaction (w : Work) (station kind : Byte) (payload : List Byte) (s : State) : State :=
  s.withLine
    { s.line with
      engine :=
        .sending { work := w, station, fieldTag := s.line.fieldTag }
          { dest := station, source := 0, kind, tag := s.line.fieldTag, flags := 0, payload }
      fieldTag := s.line.fieldTag + 1 }

def OrderKind.kindByte : OrderKind → Byte
  | .stop _ => kindOrderStop
  | .gate _ _ => kindOrderGate
  | .allStop => kindAllStop

def OrderKind.payload : OrderKind → List Byte
  | .gate _ x => [settingByte x]
  | _ => []

/-- A frame with a setting for a gate goes on the line: the record becomes CHANGING (R104); its change of state is made
known to PSEQ (R103). -/
def gateOnLine (sp : Spout) (x : Setting) (by_ : Carrier) (s : State) : State :=
  activationTest (setGate sp { s.gates.get sp with state := .changing x by_ } s)

/-- A gate order on the line; a retry leaves the record CHANGING as it was (R104). -/
def gateOrdered (sp : Spout) (x : Setting) (s : State) : State :=
  if (s.gates.get sp).state = .changing x .order then s else gateOnLine sp x .order s

/-- An attempt of an order starts (R22, R23). -/
def startOrder (k : OrderKind) (poster : Poster) (station : Byte) (attempt : Nat) (s : State) : State :=
  let s := startTransaction (.order k poster attempt) station k.kindByte k.payload s
  match k with
  | .gate sp x => gateOrdered sp x s
  | _ => s

def PollKind.kindByte : PollKind → Byte
  | .position _ => kindPollPos
  | .scale _ => kindPollScale
  | .dust _ => kindPollDust

def setLastServed (x : Served) (s : State) : State := s.withLine { s.line with lastServed := x }

/-- A poll leaves the set and starts; the mark becomes POLLS (R26, R30). -/
def startPoll (p : Poll) (s : State) : State :=
  startTransaction (.poll p.kind) p.station p.kind.kindByte [] (setLastServed .polls (s.withPolls (s.polls.erase p)))

/-- The payload of a relayed frame: the request's own, with the forwarded setting in a GATE (R6, R43). -/
def RelayBody.payload : RelayBody → List Byte
  | .move m _ _ => m.bytes
  | .gate g fwd _ => GateFields.bytes { g with setting := fwd }
  | .plain data => data

/-- A gate's state as the prior state of a relay (R104). A record is never CHANGING when a relay starts. -/
def GateState.prior : GateState → GateRest
  | .rest r => r
  | .changing _ (.relay r) => r
  | .changing _ .order => .unsure

/-- An entry that passed its recheck becomes ON_LINE with the body the recheck gave, and its transaction starts; the
mark becomes RELAYS (R31, R43). -/
def startRelay (e : RelayEntry) (body : RelayBody) (s : State) : State :=
  let s := s.withRelayQueue (s.relayQueue.map fun x => if x.tag = e.tag then { x with body, onLine := true } else x)
  let s := startTransaction (.relay e.tag) e.dest body.kindByte body.payload (setLastServed .relays s)
  match body with
  | .gate g fwd _ => gateOnLine g.spout fwd (.relay (s.gates.get g.spout).state.prior) s
  | _ => s

/-! ## The arbiter (R29 to R31) -/

/-- The place of a poll in the fixed order of R29. -/
def PollKind.rank : PollKind → Nat
  | .position .a => 0
  | .position .b => 1
  | .scale .a => 2
  | .scale .b => 3
  | .dust _ => 4

/-- The poll the arbiter takes from the set (R29). -/
def nextPoll (s : State) : Option Poll := [0, 1, 2, 3, 4].findSome? fun n => s.polls.find? fun p => p.kind.rank == n

/-- The oldest QUEUED entry (R31). -/
def oldestQueued (s : State) : Option RelayEntry := s.relayQueue.find? fun e => !e.onLine

/-- The arbiter's choice (R29, R30). An entry that fails its recheck is answered and withdrawn, and the arbiter runs on:
each such entry leaves the queue, so the queue's length and one run more suffice. -/
def arbiterRun : Nat → State → State
  | 0, s => s
  | fuel + 1, s =>
    match s.orders with
    | o :: rest => startOrder o.kind o.poster o.station 1 (s.withOrders rest)
    | [] =>
      match s.line.lastServed, nextPoll s, oldestQueued s with
      | .relays, some p, _ => startPoll p s
      | _, _, some e =>
        match dispatchCheck s e with
        | .ok body => startRelay e body s
        | .error x => arbiterRun fuel (withdrawMove e (refuseEntry x.1 x.2 e s))
      | _, some p, none => startPoll p s
      | _, none, none => s

/-- The arbiter runs where the engine is FREE; it does at the end of every event that can bring work to a free line
(R29, log 26). While the restart input is asserted no transaction starts (R183). -/
def arbitrate (s : State) : State :=
  if s.line.engine = .free ∧ s.pins.restartAsserted = false then arbiterRun (s.relayQueue.length + 1) s else s

/-! ## Answers (R7) -/

/-- The status byte of an ANSWER; a value above 3 counts as FAULT (R7). -/
inductive Status | ok | busy | fault | reject
  deriving DecidableEq, Repr

def statusOf : List Byte → Status
  | [] => .fault
  | b :: _ => if b = 0 then .ok else if b = 1 then .busy else if b = 3 then .reject else .fault

/-- A valid position answer: status OK and exactly 12 bytes. -/
def readPosition : List Byte → Option (Position × Byte)
  | [st, r3, r2, r1, r0, s1, s0, e1, e0, l1, l0, fl] =>
    if st = 0 then
      some ({ rail := word32 r3 r2 r1 r0, slew := word16 s1 s0, reach := word16 e1 e0, lower := word16 l1 l0 }, fl)
    else none
  | _ => none

/-- A valid dust answer: status OK, exactly 4 bytes, no head fault. -/
def readDust : List Byte → Option Word16
  | [st, c1, c0, ft] => if st = 0 ∧ ft = 0 then some (word16 c1 c0) else none
  | _ => none

/-- A valid scale answer: status OK, exactly 6 bytes, no scale fault. -/
def readScale : List Byte → Option Word32
  | [st, t3, t2, t1, t0, ft] => if st = 0 ∧ ft = 0 then some (word32 t3 t2 t1 t0) else none
  | _ => none

/-! ## Ends of transactions (R20): `answer` is the ANSWER's payload, or `none` where the reply timer ran out -/

/-- A poll's report to its owner; a FAULT answer is treated as a missing one (R7). -/
def pollReport (k : PollKind) (answer : Option (List Byte)) (s : State) : State :=
  match k with
  | .position sp =>
    match answer.bind readPosition with
    | some (p, flags) => positionAnswer sp p flags s
    | none => missedPoll sp s
  | .dust i => dustReport i (answer.bind readDust) s
  | .scale sp => scaleReport sp (answer.bind readScale) s

/-- An order that ends OK (R22). -/
def orderOk (k : OrderKind) (s : State) : State :=
  match k with
  | .gate sp x => confirmGate sp x s
  | _ => s

/-- An order that ends FAILED (R24). -/
def orderFailed (k : OrderKind) (station : Byte) (s : State) : State :=
  match k with
  | .stop _ => setNotice .fieldSilent (subjectByte station) s
  | .gate sp x => gateOrderFailed sp x s
  | .allStop => s

/-- A failed attempt (R23): superseded by a newer order, sent again at once, or exhausted. -/
def attemptFailed (k : OrderKind) (poster : Poster) (station : Byte) (attempt : Nat) (s : State) : State :=
  if s.orders.any fun o => o.station == station then s
  else if attempt < 3 then startOrder k poster station (attempt + 1) s
  else orderFailed k station s

/-- The judgement of an attempt (R22). -/
def orderEnd (k : OrderKind) (poster : Poster) (station : Byte) (attempt : Nat) (answer : Option (List Byte))
    (s : State) : State :=
  match answer.map statusOf with
  | some .ok => orderOk k s
  | some .reject => orderFailed k station s
  | _ => attemptFailed k poster station attempt s

def RelayBody.isTrimmed : RelayBody → Bool
  | .gate _ _ t => t
  | _ => false

/-- The upstream answer of an ON_LINE entry (R45, R46). -/
def relayAnswer (e : RelayEntry) (answer : Option (List Byte)) : Answer :=
  match answer with
  | some payload => { kind := .relayed, tag := e.tag, payload, trimmed := e.body.isTrimmed, isRestart := false }
  | none => refusalAnswer e.tag .noReply e.dest e.body.kindByte

/-- The owning block takes a relay's outcome (R45, R46). -/
def relayOutcome (body : RelayBody) (good : Bool) (s : State) : State :=
  match body with
  | .move m _ _ => if good then s else undoMove m.spout m.target s
  | .gate g fwd _ => if good then confirmGate g.spout fwd s else relayGateFailed g.spout s
  | .plain _ => s

/-- A relay transaction ends: the entry is answered and leaves the queue, and the owning block is told. -/
def relayEnd (tag : Byte) (answer : Option (List Byte)) (s : State) : State :=
  match s.relayQueue.find? fun e => e.tag == tag with
  | none => s
  | some e => relayOutcome e.body (answer.map statusOf == some .ok) (answerEntry e (relayAnswer e answer) s)

/-- A transaction ends with an answer or without: the engine is FREE, the outcome is handed on, and the arbiter runs
(R19, R20, R29). -/
def endTransaction (t : Transaction) (answer : Option (List Byte)) (s : State) : State :=
  let s := setEngine .free s
  arbitrate
    (match t.work with
    | .poll k => pollReport k answer s
    | .order k poster attempt => orderEnd k poster t.station attempt answer s
    | .relay tag => relayEnd tag answer s)

/-! ## Events of the line -/

/-- R14: destination 0, source 1..60, kind ANSWER, a status byte present. -/
def fieldAccepted (f : Frame) : Bool :=
  f.dest == 0 && fieldAddress f.source && f.kind == kindAnswer && !f.payload.isEmpty

/-- A handed frame is matched with the transaction that awaits it, or discarded (R19). -/
def matchAnswer (f : Frame) (s : State) : State :=
  match s.line.engine with
  | .awaiting t _ => if f.source = t.station ∧ f.tag = t.fieldTag then endTransaction t (some f.payload) s else s
  | _ => s

/-- SENT is reported to RUNC for an ALL_STOP (R25). The all-stop status follows the ALL_STOP of the last HALT entry
(R175): while another ALL_STOP waits in the queue, that one is it, and the status stays PENDING (log 29). -/
def allStopSent (s : State) : State :=
  if s.orders.any fun o => o.kind == .allStop then s else s.withRunc { s.runc with allStop := some .sent }

/-- The end of a field frame's transmission (R18, R25). -/
def fieldFrameEnd (s : State) : State :=
  match s.line.engine with
  | .sending t _ =>
    match t.work with
    | .order .allStop _ _ => arbitrate (allStopSent (setEngine .free s))
    | _ => setEngine (.awaiting t s.settings.inUse.replyTimeout.toNat) s
  | _ => s

/-- The reply timer runs out (R20). -/
def replyTimerEnd (s : State) : State :=
  match s.line.engine with
  | .awaiting t _ => endTransaction t none s
  | _ => s

end Sys2Proof.Machine
end

