-- ==== Sys2Proof/Machine/Restart.lean ====
section
/-! DEFINITION. The restart (R183): every block takes its restart values; and the states after power-on (R184). -/

namespace Sys2Proof.Machine

/-- The zone table keeps its loaded fields and every claim owner becomes none (R52, R80). -/
def restartZones (z : ZoneTable) : ZoneTable :=
  { z with entries := mapTable (fun x => { x with owner := none }) z.entries }

/-- A head keeps its configuration, its latest sample and its sampled mark (R102). -/
def restartHead (h : Head) : Head :=
  { h with state := .live .quiet, riseCount := 0, riseLevel := .watch, fallCount := 0, missCount := 0 }

/-- ACTIVE, HELD and SUSPENDED steps become WAITING, and every in-top-off flag becomes no (R142). -/
def restartStep (r : StepRec) : StepRec :=
  { r with
    inTopOff := false
    state := if r.pouring ∨ r.state = .suspended then .waiting else r.state }

/-- A step that the restart makes WAITING and that is complete becomes DONE (R142, R133). -/
def doneAtRestart (r : StepRec) : Bool := (r.pouring || r.state == .suspended) && r.complete

/-- A step record after a restart (R142). -/
def restartedStep (r : StepRec) : StepRec :=
  if doneAtRestart r then { restartStep r with state := .done } else restartStep r

/-- A count stops at 65535 after `n` increases. -/
def satIncBy : Nat → Word16 → Word16
  | 0, w => w
  | n + 1, w => satIncBy n (satInc w)

/-- The OPEN bill after a restart: one gap more, and the steps found complete counted (R173, R165). -/
def restartBill (doneSteps : Nat) (b : Bill) : Bill :=
  { b with gaps := satInc b.gaps, steps := satIncBy doneSteps b.steps }

def restartBills (doneSteps : Nat) (t : Vector (Option Bill) 8) : Vector (Option Bill) 8 :=
  mapTable (fun o => o.map fun b => if b.state = .opened then restartBill doneSteps b else b) t

/-- The notice flags are cleared; subjects and mask are kept (R189). -/
def restartNotices (n : Notices) : Notices := { n with flags := Vector.replicate 13 false }

/-- The restart of every block (R15, R33, R51, R80, R102, R119, R142, R152, R174, R175, R189). The pins, the straps read
at power-on, and the model's own fields are no block's state. -/
def restartAll (s : State) : State :=
  { s with
    sport := Sport.initial
    line := FieldLine.initial
    orders := []
    polls := []
    timers := { position := none, scale := none }
    relayQueue := []
    zones := restartZones s.zones
    console := 2
    spouts := { a := SpoutRec.initial, b := SpoutRec.initial }
    heads := mapTable restartHead s.heads
    cycle := Cycle.initial
    holdDust := Vector.replicate 9 .quiet
    gates := { a := GateRec.initial, b := GateRec.initial }
    plan := s.plan.map restartedStep
    account := { a := none, b := none }
    stack := StackUnit.initial
    baselines := { a := { s.baselines.a with valid := false }, b := { s.baselines.b with valid := false } }
    bills := restartBills (s.plan.countP doneAtRestart) s.bills
    notices := restartNotices s.notices
    runc := RunControl.initial }

/-- Power-on (R184): every block at its power-on values, the straps read; the key input and RESTART_N stand at the
levels they have (log 7). -/
def powerUp (strapClk strapBaud : Bool) (s : State) : State :=
  ((State.reset.withPending s.pending).withFreeCount s.freeCount).withPins { s.pins with strapClk, strapBaud }

/-- The rate of the supervisor line in bit/s, as its strap was read (R1, R184). -/
def supervisorRate (p : Pins) : Nat := if p.strapBaud then 115200 else 57600

/-- The clock input frequency in MHz, as its strap was read (R184). -/
def clockMegahertz (p : Pins) : Nat := if p.strapClk then 16 else 8

end Sys2Proof.Machine
end

