-- ==== Sys2Proof/Machine/Link.lean ====
section
/-! DEFINITION. SPORT: the receivers, taking a frame, answering, and the upstream line (chapter 1). -/

namespace Sys2Proof.Machine

def setSupRx (r : Receiver) (s : State) : State := s.withSport { s.sport with supRx := r }

def setFldRx (r : Receiver) (s : State) : State := s.withSport { s.sport with fldRx := r }

/-! ## The supervisor receiver (R3, R4, R11, R15) -/

/-- A complete frame with a good check word (R11): `taken` is what becomes of it once it has a place. It is dropped
while a RESTART is pending (R15), and set aside as LINK_FAULT 4 where no place is free. While the restart input is
asserted the line is ignored (R183). -/
def receive (taken : State → State) (s : State) : State :=
  if s.pins.restartAsserted then s
  else
    let s := setSupRx .hunt s
    if s.sport.restartPending then s
    else if Config.outputPlaces ≤ s.placesUsed then setNotice .linkFault 4 s
    else taken s

/-- A frame that fails its check word (R4); while a RESTART is pending a complete frame is dropped without notice
(R15). -/
def receiveDamaged (s : State) : State :=
  if s.pins.restartAsserted then s
  else
    let s := setSupRx .hunt s
    if s.sport.restartPending then s else setNotice .linkFault 1 s

/-- A frame discarded at its length byte, subject 2, or abandoned at the time limit, subject 3 (R3, R4). -/
def discard (subject : Word16) (s : State) : State :=
  if s.pins.restartAsserted then s else setNotice .linkFault subject (setSupRx .hunt s)

/-! ## Answering (R10, R191) -/

/-- The REPLY becomes ready after the owning block has finished its changes. -/
def replied (tag : Byte) (op : State → Reply) (s : State) : State :=
  let r := op s
  pushReady (replyAnswer tag r.code r.data) r.state

/-- The same for a request that can bring work to the field line: the arbiter runs at the end of the event. -/
def repliedActs (tag : Byte) (op : State → Reply) (s : State) : State := arbitrate (replied tag op s)

/-- The REPLY to RESTART takes the first place in the send order, behind a frame that is being sent (R15). -/
def placeFirst (a : Answer) (sending : Bool) : List Answer → List Answer
  | x :: rest => if sending then x :: a :: rest else a :: x :: rest
  | [] => [a]

/-- RESTART is taken (R15, R183). -/
def takeRestart (tag : Byte) (s : State) : State :=
  s.withSport
    { s.sport with
      ready := placeFirst { replyAnswer tag .done [] with isRestart := true } s.sport.sending.isSome s.sport.ready
      restartPending := true }

/-! ## The upstream line (R10, R11, R13) -/

def AnswerKind.byte : AnswerKind → Byte
  | .reply => kindReply
  | .relayed => kindRelayed
  | .refusal => kindRefusal

/-- The frame of an answer whose start byte goes out in state `s`. -/
def answerFrame (s : State) (a : Answer) : Frame :=
  { dest := 62, source := 0, kind := a.kind.byte, tag := a.tag, flags := headerFlags s a, payload := a.payload }

/-- The first ready frame begins to go out, where none is being sent. -/
def startUpstream (s : State) : State :=
  if s.pins.restartAsserted ∨ s.sport.sending.isSome then s
  else
    match s.sport.ready with
    | a :: _ => s.withSport { s.sport with sending := some (answerFrame s a) }
    | [] => s

/-- The last byte of the frame has gone out: its place is free, and after the REPLY to RESTART the restart takes place
(R11, R15). -/
def endUpstream (s : State) : State :=
  match s.sport.sending, s.sport.ready with
  | some _, a :: rest =>
    let t := s.withSport { s.sport with ready := rest, sending := none }
    if a.isRestart then restartAll t else t
  | _, _ => s

/-! ## The field receiver (R3, R14) -/

/-- The field receiver hears nothing while the part transmits (R1, log 14) or the restart input is asserted (R183). -/
def fieldDeaf (s : State) : Bool := s.pins.restartAsserted || s.line.engine.driving

/-- A field frame that is discarded or abandoned: no notice (R4). -/
def dropField (s : State) : State := if fieldDeaf s then s else setFldRx .hunt s

/-- A complete field frame with a good check word (R14, R19). -/
def takeField (f : Frame) (s : State) : State :=
  if fieldDeaf s then s
  else
    let s := setFldRx .hunt s
    if fieldAccepted f then matchAnswer f s else s

end Sys2Proof.Machine
end

