-- ==== Sys2Proof/Machine/FieldEvents.lean ====
section
/-! DEFINITION. Events of the field line, the timers, the clock and the pins. -/

namespace Sys2Proof.Machine

/-! ## The field line (R3, R14, R18, R20) -/

/-- FIELD_FRAME_RECEIVED: a frame and the check word that came with it; a frame that is too long or damaged is
discarded without a notice (R3, R4). -/
def execFieldFrameReceived (f : Frame) (check : Word16) (s : State) : Result :=
  .next (if f.payload.length ≤ Config.maxPayload ∧ check = f.check then takeField f s else dropField s)

/-- FIELD_FRAME_LENGTH_DISCARD. -/
def execFieldFrameLengthDiscard (s : State) : Result := .next (dropField s)

/-- FIELD_FRAME_TIME_LIMIT: the receiver's own clock ends the frame, whatever the part is sending. -/
def execFieldFrameTimeLimit (s : State) : Result := .next (setFldRx .hunt s)

/-- FIELD_CHECK_WORD_MISMATCH. -/
def execFieldCheckWordMismatch (s : State) : Result := .next (dropField s)

/-- FIELD_FRAME_SENT. -/
def execFieldFrameSent (s : State) : Result := .next (fieldFrameEnd s)

/-- REPLY_TIMEOUT. -/
def execReplyTimeout (s : State) : Result := .next (replyTimerEnd s)

/-! ## The timers (R27, R88, R161) -/

/-- POSITION_TIMER_EXPIRY, where the timer runs: it reloads and its polls are made due. -/
def execPositionTimerExpiry (s : State) : Result :=
  .next
    (match s.timers.position with
    | none => s
    | some _ =>
      arbitrate (positionPolls (s.withTimers
        { s.timers with position := some s.settings.inUse.positionPeriod.toNat })))

/-- SCALE_TIMER_EXPIRY, where the timer runs: it reloads and its polls are made due. -/
def execScaleTimerExpiry (s : State) : Result :=
  .next
    (match s.timers.scale with
    | none => s
    | some _ =>
      arbitrate (scalePolls (s.withTimers { s.timers with scale := some s.settings.inUse.scalePeriod.toNat })))

/-- CYCLE_TIMER_EXPIRY, where the timer runs. -/
def execCycleTimerExpiry (s : State) : Result :=
  .next
    (match s.cycle.timer with
    | none => s
    | some _ => arbitrate (cycleExpiry s))

/-- CLOCK_MINUTE: the count of minutes goes up, and the ticks towards the next start from 0. -/
def execClockMinute (s : State) : Result := .next (s.withClock { minutes := s.clock.minutes + 1, ticks := 0 })

/-! ## Pins and power (R58, R183, R184) -/

/-- POWER_ON. -/
def execPowerOn (strapClk strapBaud : Bool) (s : State) : Result := .next (powerUp strapClk strapBaud s)

/-- RESTART_INPUT: the restart takes effect on assertion. -/
def execRestartInput (s : State) : Result :=
  .next
    (if s.pins.restartAsserted then s
    else (restartAll s).withPins { s.pins with restartAsserted := true })

/-- RESTART_INPUT_RELEASE: the part starts work in CONFIG. -/
def execRestartInputRelease (s : State) : Result := .next (s.withPins { s.pins with restartAsserted := false })

/-- MAINTENANCE_KEY_INACTIVE: a console level of 0 becomes 1. -/
def execMaintenanceKeyInactive (s : State) : Result :=
  .next ((s.withPins { s.pins with keyActive := false }).withConsole (if s.console = 0 then 1 else s.console))

/-- MAINTENANCE_KEY_ACTIVE: no level changes. -/
def execMaintenanceKeyActive (s : State) : Result := .next (s.withPins { s.pins with keyActive := true })

end Sys2Proof.Machine
end

