-- ==== Sys2Proof/Machine/BillRequests.lean ====
section
/-! DEFINITION. Bill requests (R163 to R172, R199). -/

namespace Sys2Proof.Machine

/-- The slot and record that carry a bill number. -/
def findBill (s : State) (n : Word16) : Option (Fin 8 × Bill) :=
  (List.finRange 8).findSome? fun i =>
    match s.bills[i] with
    | some b => if b.number = n then some (i, b) else none
    | none => none

/-- The readout cursor names this bill. -/
def cursorNames (s : State) (n : Word16) : Bool :=
  match s.stack.shared with
  | .cursor m _ => m == n
  | _ => false

/-! ## OPEN_BILL (R163, R164) -/

/-- The lowest-numbered empty slot. -/
def emptySlot (s : State) : Option (Fin 8) := (List.finRange 8).find? fun i => (s.bills[i]).isNone

/-- The closed-at of a record that can be evicted: ISSUED and not named by the cursor (R164). -/
def evictable (s : State) (i : Fin 8) : Option Word32 :=
  match s.bills[i] with
  | some b => if b.state = .issued ∧ cursorNames s b.number = false then some b.closedAt else none
  | none => none

/-- The better of two slots to evict: the earlier closed-at, and on a tie the one found first. -/
def earlier (s : State) (best : Option (Fin 8)) (i : Fin 8) : Option (Fin 8) :=
  match evictable s i, best.bind (evictable s) with
  | some x, some y => if x.toNat < y.toNat then some i else best
  | some _, none => some i
  | none, _ => best

/-- The slot whose record is evicted (R164). -/
def evictSlot (s : State) : Option (Fin 8) := (List.finRange 8).foldl (earlier s) none

/-- The slot a new record takes. -/
def newSlot (s : State) : Option (Fin 8) :=
  match emptySlot s with
  | some i => some i
  | none => evictSlot s

/-- A new OPEN record (R163). -/
def newBill (n : Word16) (minutes : Word32) : Bill :=
  { number := n, state := .opened, openedAt := minutes, closedAt := 0, gaps := 0, steps := 0,
    holds := Vector.replicate 9 0, unplaced := 0, total := 0, readThrough := false }

def openBill (n : Word16) (s : State) : Reply :=
  if (openSlot s).isSome then Reply.refuse .billOpen s
  else if n = 0 then Reply.refuse .badValue s
  else if (findBill s n).isSome then Reply.refuse .dupBill s
  else
    match newSlot s with
    | none => Reply.refuse .billTableFull s
    | some i => Reply.ok [byteOfNat i.val] (setBill i (newBill n s.clock.minutes) s)

/-! ## CLOSE_BILL (R166) -/

/-- A cursor on this bill goes back to item 0 (R169). -/
def rewindCursor (n : Word16) (s : State) : State :=
  if cursorNames s n then s.withStack { s.stack with shared := .cursor n 0 } else s

def closedBill (b : Bill) (minutes : Word32) : Bill :=
  { b with closedAt := minutes, state := .closed, readThrough := false }

def closeBill (s : State) : Reply :=
  match (openSlot s).bind fun i => (s.bills[i]).map fun b => (i, b) with
  | none => Reply.refuse .noBill s
  | some (i, b) =>
    match unclosedGate s with
    | some sp => { code := .gatesNotClosed, data := [sp.byte], state := s }
    | none =>
      Reply.ok (bytes16 b.number ++ bytes32 b.total)
        (rewindCursor b.number (setBill i (closedBill b s.clock.minutes) s))

/-! ## Reading a bill (R167 to R170) -/

def setShared (x : Shared) (s : State) : State := s.withStack { s.stack with shared := x }

def readBillOpen (n : Word16) (s : State) : Reply :=
  if (findBill s n).isNone then Reply.refuse .noBill s
  else if s.stack.shared = .empty then Reply.ok [] (setShared (.cursor n 0) s)
  else Reply.refuse .cursorBusy s

/-- The header item (R168, R199). -/
def billHeader (i : Fin 8) (b : Bill) : List Byte :=
  bytes16 b.number ++ [b.state.byte] ++ bytes32 b.openedAt ++ bytes32 b.closedAt
    ++ [yesNo b.readThrough, byteOfNat i.val]

/-- An item of a bill, 0..12, after its index byte. -/
def billItem (i : Fin 8) (b : Bill) (item : Nat) : List Byte :=
  if item = 0 then billHeader i b
  else if h : item - 1 < 9 then byteOfNat item :: bytes32 b.holds[item - 1]
  else if item = 10 then bytes32 b.unplaced
  else if item = 11 then bytes32 b.total
  else bytes16 b.gaps ++ bytes16 b.steps

/-- END on a CLOSED record marks it read through (R169). -/
def markRead (i : Fin 8) (b : Bill) (s : State) : State :=
  if b.state = .closed then setBill i { b with readThrough := true } s else s

def readBillNext (s : State) : Reply :=
  match s.stack.shared with
  | .cursor n item =>
    match findBill s n with
    | none => Reply.refuse .noBill s
    | some (i, b) =>
      if item ≤ 12 then Reply.ok (byteOfNat item :: billItem i b item) (setShared (.cursor n (item + 1)) s)
      else { code := .endMark, data := [], state := markRead i b s }
  | _ => Reply.refuse .noCursor s

/-- The cursor is closed and the level offered to the latches; the activation test ends the event (R151, R149, R128). -/
def readBillEnd (s : State) : Reply :=
  match s.stack.shared with
  | .cursor _ _ => Reply.ok [] (activationTest (serveShared (setShared .empty s)))
  | _ => Reply.refuse .noCursor s

/-! ## ISSUE_BILL and CLEAR_UNBILLED (R171, R172) -/

def issueBill (n : Word16) (s : State) : Reply :=
  match findBill s n with
  | none => Reply.refuse .noBill s
  | some (i, b) =>
    if b.state = .closed ∧ b.readThrough = true then
      Reply.ok (bytes16 b.number ++ bytes32 b.total) (setBill i { b with state := .issued } s)
    else Reply.refuse .notRead s

def clearUnbilled (s : State) : Reply := Reply.ok (bytes32 s.unbilled) (s.withUnbilled 0)

/-! ## The commands -/

/-- OPEN_BILL. -/
def execOpenBill (tag : Byte) (number : Word16) (s : State) : Result :=
  .next (receive (replied tag (openBill number)) s)

/-- CLOSE_BILL. -/
def execCloseBill (tag : Byte) (s : State) : Result := .next (receive (replied tag closeBill) s)

/-- READ_BILL_OPEN. -/
def execReadBillOpen (tag : Byte) (number : Word16) (s : State) : Result :=
  .next (receive (replied tag (readBillOpen number)) s)

/-- READ_BILL_NEXT. -/
def execReadBillNext (tag : Byte) (s : State) : Result := .next (receive (replied tag readBillNext) s)

/-- READ_BILL_END. -/
def execReadBillEnd (tag : Byte) (s : State) : Result := .next (receive (repliedActs tag readBillEnd) s)

/-- ISSUE_BILL. -/
def execIssueBill (tag : Byte) (number : Word16) (s : State) : Result :=
  .next (receive (replied tag (issueBill number)) s)

/-- CLEAR_UNBILLED. -/
def execClearUnbilled (tag : Byte) (s : State) : Result := .next (receive (replied tag clearUnbilled) s)

end Sys2Proof.Machine
end

