-- ==== Sys2Proof/Machine/ConfigRequests.lean ====
section
/-! DEFINITION. Configuration requests (R35, R53, R54, R82, R182, R195). -/

namespace Sys2Proof.Machine

/-- A configuration request is taken in CONFIG alone; the value check `op` follows. -/
def inConfig (op : State → Reply) (s : State) : Reply :=
  if s.runc.state = .config then op s else Reply.refuse .notConfig s

/-- Write where the fields are good, BAD_VALUE otherwise. -/
def writeIf (write : Option (State → State)) (s : State) : Reply :=
  match write with
  | some w => Reply.ok [] (w s)
  | none => Reply.refuse .badValue s

/-! ## LOAD_STATION (R34, R35) -/

/-- The unit suits the kind. -/
def unitGood (k : StationKind) (unit : Byte) : Bool :=
  match k with
  | .spoutDrive | .feedGate | .beltScale => unit.toNat ≤ 1
  | .dustHead => unit.toNat ≤ 15
  | .other => true

/-- The relay class as stored: FREE for a drive or a gate. -/
def storedClass (k : StationKind) (c : RelayClass) : RelayClass :=
  match k with
  | .spoutDrive | .feedGate => .free
  | _ => c

/-- The entry that a LOAD_STATION writes. -/
def stationEntry (present : Bool) (kind unit relayClass : Byte) : Option Station :=
  match stationKindOfByte kind, relayClassOfByte relayClass with
  | some k, some c =>
    if unitGood k unit then
      some (if present then { present := true, kind := k, unit, relayClass := storedClass k c } else Station.initial)
    else none
  | _, _ => none

def writeStation (address : Byte) (present : Bool) (kind unit relayClass : Byte) : Option (State → State) :=
  match addressIx? address, stationEntry present kind unit relayClass with
  | some i, some x => some fun s => s.withStations (s.stations.set i.val x)
  | _, _ => none

def loadStation (address : Byte) (present : Bool) (kind unit relayClass : Byte) : State → Reply :=
  inConfig (writeIf (writeStation address present kind unit relayClass))

/-! ## LOAD_ZONE and SET_ZONE_LIMIT (R53, R54) -/

/-- Every axis min is at most its max and all eight values lie in the ranges of R52. -/
def boxGood (b : Box) : Bool :=
  (decide (b.railMin.toNat ≤ b.railMax.toNat) && decide (b.railMax.toNat ≤ 400000))
    && (decide (-1800 ≤ b.slewMin.toInt) && decide (b.slewMin.toInt ≤ b.slewMax.toInt)
      && decide (b.slewMax.toInt ≤ 1800))
    && (decide (b.reachMin.toNat ≤ b.reachMax.toNat) && decide (b.reachMax.toNat ≤ 30000))
    && (decide (b.lowerMin.toNat ≤ b.lowerMax.toNat) && decide (b.lowerMax.toNat ≤ 25000))

/-- A zone index 1..63. -/
def zoneNumber (b : Byte) : Bool := 1 ≤ b.toNat && b.toNat ≤ 63

/-- The loaded fields of an entry as stored: fields its type does not use are 0 (R54). The claim owner is not loaded. -/
def zoneEntry (z : ZoneFields) : Option (Option Spout → Zone) :=
  match zoneTypeOfByte z.zoneType, levelOfByte z.level with
  | some .hold, some level =>
    match holdOfByte z.hold with
    | some h =>
      if boxGood z.box then
        some fun owner => { present := z.present, zoneType := .hold, level, hold := some h, box := z.box, fromZone := 0,
                            toZone := 0, owner }
      else none
    | none => none
  | some .route, some level =>
    if zoneNumber z.fromZone && zoneNumber z.toZone then
      some fun owner => { present := z.present, zoneType := .route, level, hold := none, box := Box.zero,
                          fromZone := z.fromZone, toZone := z.toZone, owner }
    else none
  | some t, some level =>
    if boxGood z.box then
      some fun owner => { present := z.present, zoneType := t, level, hold := none, box := z.box, fromZone := 0,
                          toZone := 0, owner }
    else none
  | _, _ => none

def writeZone (z : ZoneFields) : Option (State → State) :=
  match zoneIx? z.index, zoneEntry z with
  | some i, some mk =>
    if i = 0 then none
    else some fun s => s.withZones { s.zones with entries := s.zones.entries.set i.val (mk (s.zone i).owner) }
  | _, _ => none

def loadZone (z : ZoneFields) : State → Reply := inConfig (writeIf (writeZone z))

def writeLimit (limit : Byte) : Option (State → State) :=
  if 1 ≤ limit.toNat ∧ limit.toNat ≤ 64 then some fun s => s.withZones { s.zones with limit := limit.toNat } else none

def setZoneLimit (limit : Byte) : State → Reply := inConfig (writeIf (writeLimit limit))

/-! ## LOAD_HEAD (R82) -/

/-- The fields of a present head are in range. -/
def headGood (h : HeadFields) : Bool :=
  fieldAddress h.station && decide (h.hold.toNat ≤ 9) && decide (h.trip.toNat ≤ 4000)
    && decide (h.watch.toNat ≤ h.alarm.toNat) && decide (h.alarm.toNat ≤ h.trip.toNat)
    && decide (h.hysteresis.toNat ≤ 500) && (decide (1 ≤ h.persistence.toNat) && decide (h.persistence.toNat ≤ 8))

/-- The entry a LOAD_HEAD writes; the dynamic fields take their power-on values. -/
def headEntry (h : HeadFields) : Option Head :=
  if h.present then
    if headGood h then
      some { Head.initial with
        present := true, station := h.station, hold := holdOfByte h.hold, watch := h.watch, alarm := h.alarm,
        trip := h.trip, hysteresis := h.hysteresis, persistence := h.persistence }
    else none
  else some Head.initial

def writeHead (h : HeadFields) : Option (State → State) :=
  match headIx? h.index, headEntry h with
  | some i, some x => some fun s => setHead i x s
  | _, _ => none

def loadHead (h : HeadFields) : State → Reply := inConfig (writeIf (writeHead h))

/-! ## SET_TIMING and SET_LIMITS (R182) -/

def inRange (lo hi : Nat) (w : Word16) : Bool := decide (lo ≤ w.toNat) && decide (w.toNat ≤ hi)

def stage (f : Settings → Settings) (s : State) : State :=
  s.withSettings { s.settings with staged := f s.settings.staged }

def writeTiming (reply position scale cycle : Word16) : Option (State → State) :=
  if inRange 2 250 reply && inRange 20 1000 position && inRange 100 2000 scale && inRange 200 10000 cycle then
    some (stage fun x =>
      { x with replyTimeout := reply, positionPeriod := position, scalePeriod := scale, cyclePeriod := cycle })
  else none

def setTiming (reply position scale cycle : Word16) : State → Reply :=
  inConfig (writeIf (writeTiming reply position scale cycle))

def writeLimits (spouts alarmCap : Byte) (maxDelta : Word16) : Option (State → State) :=
  match settingOfByte alarmCap with
  | some c =>
    if (spouts = 1 ∨ spouts = 2) ∧ inRange 1 5000 maxDelta then
      some (stage fun x => { x with spoutsFitted := spouts.toNat, alarmCap := c, maxDelta })
    else none
  | none => none

def setLimits (spouts alarmCap : Byte) (maxDelta : Word16) : State → Reply :=
  inConfig (writeIf (writeLimits spouts alarmCap maxDelta))

/-! ## The commands -/

/-- LOAD_STATION. -/
def execLoadStation (tag address : Byte) (present : Bool) (kind unit relayClass : Byte) (s : State) : Result :=
  .next (receive (replied tag (loadStation address present kind unit relayClass)) s)

/-- LOAD_ZONE. -/
def execLoadZone (tag : Byte) (z : ZoneFields) (s : State) : Result := .next (receive (replied tag (loadZone z)) s)

/-- SET_ZONE_LIMIT. -/
def execSetZoneLimit (tag limit : Byte) (s : State) : Result := .next (receive (replied tag (setZoneLimit limit)) s)

/-- LOAD_HEAD. -/
def execLoadHead (tag : Byte) (h : HeadFields) (s : State) : Result := .next (receive (replied tag (loadHead h)) s)

/-- SET_TIMING. -/
def execSetTiming (tag : Byte) (reply position scale cycle : Word16) (s : State) : Result :=
  .next (receive (replied tag (setTiming reply position scale cycle)) s)

/-- SET_LIMITS. -/
def execSetLimits (tag spouts alarmCap : Byte) (maxDelta : Word16) (s : State) : Result :=
  .next (receive (replied tag (setLimits spouts alarmCap maxDelta)) s)

end Sys2Proof.Machine
end

