-- ==== Sys2Proof/Machine/DustRequests.lean ====
section
/-! DEFINITION. Travel and dust requests (R60, R89, R96, R197). -/

namespace Sys2Proof.Machine

/-! ## SET_FREEBOARD (R60, R78) -/

/-- The offset is written; the overreach test runs for each spout SETTLED in the hold, and what it changes is made
known. -/
def writeFreeboard (h : Hold) (offset : Word16) (s : State) : State :=
  let t := s.withFreeboard (s.freeboard.set h.val offset)
  tcuKnown s (bothSpouts.foldl (fun u sp => if settledOver u sp h then testOverreach sp u else u) t)

def setFreeboard (hold : Byte) (offset : Word16) (s : State) : Reply :=
  match holdOfByte hold with
  | some h => if offset.toNat ≤ 5000 then Reply.ok [] (writeFreeboard h offset s) else Reply.refuse .badValue s
  | none => Reply.refuse .badValue s

/-! ## SAMPLE_NOW (R89) -/

def sampleNow (s : State) : Reply :=
  if s.runc.state = .config then Reply.refuse .notRunning s
  else
    match s.cycle.state with
    | .idle => Reply.ok [] (startCycle s)
    | .cycling => Reply.refuse .busy s

/-! ## ACK_TRIP (R96) -/

/-- The trip may be acknowledged: the latest sample is valid and below the trip threshold less the hysteresis. -/
def tripClears (h : Head) : Bool := h.sampleValid && belowFallPoint h.trip h.hysteresis h.sample

/-- A tripped head after its acknowledgement. -/
def acknowledged (h : Head) : Head := { h with state := .live .alarm, riseCount := 0, fallCount := 0, riseLevel := .watch }

def ackTrip (index : Byte) (s : State) : Reply :=
  match headIx? index with
  | none => Reply.refuse .badValue s
  | some i =>
    let h := s.heads[i]
    if h.present = false then Reply.refuse .badValue s
    else if h.state ≠ .live .trip then Reply.ok [h.state.byte] s
    else if tripClears h then Reply.ok [Dust.byte .alarm] (changeHead i (acknowledged h) s)
    else Reply.refuse .tripPersists s

/-! ## The commands -/

/-- SET_FREEBOARD. -/
def execSetFreeboard (tag hold : Byte) (offset : Word16) (s : State) : Result :=
  .next (receive (repliedActs tag (setFreeboard hold offset)) s)

/-- SAMPLE_NOW. -/
def execSampleNow (tag : Byte) (s : State) : Result := .next (receive (repliedActs tag sampleNow) s)

/-- ACK_TRIP. -/
def execAckTrip (tag head : Byte) (s : State) : Result := .next (receive (repliedActs tag (ackTrip head)) s)

end Sys2Proof.Machine
end

