-- ==== Sys2Proof/Machine/NoticeRequests.lean ====
section
/-! DEFINITION. Notice requests (R186, R187, R197). -/

namespace Sys2Proof.Machine

/-- The set flag of lowest number that is not in the mask (R186). -/
def firstVisible (n : Notices) : Option (Fin 13) := (List.finRange 13).find? fun i => n.flags[i] && !n.mask[i]

def nextNotice (s : State) : Reply :=
  match firstVisible s.notices with
  | some i =>
    Reply.ok (byteOfNat (i.val + 1) :: bytes16 s.notices.subjects[i])
      (s.withNotices { s.notices with flags := s.notices.flags.set i.val false })
  | none => { code := .none, data := [], state := s }

def clearNotices (names : Word16) (s : State) : Reply :=
  if noticeSetOk names then
    Reply.ok [] (s.withNotices
      { s.notices with flags := Vector.ofFn fun i : Fin 13 => s.notices.flags[i] && !noticeNamed names i })
  else Reply.refuse .badValue s

def setNoticeMask (names : Word16) (s : State) : Reply :=
  if noticeSetOk names then
    Reply.ok [] (s.withNotices { s.notices with mask := Vector.ofFn fun i : Fin 13 => noticeNamed names i })
  else Reply.refuse .badValue s

/-! ## The commands -/

/-- NEXT_NOTICE. -/
def execNextNotice (tag : Byte) (s : State) : Result := .next (receive (replied tag nextNotice) s)

/-- CLEAR_NOTICES. -/
def execClearNotices (tag : Byte) (names : Word16) (s : State) : Result :=
  .next (receive (replied tag (clearNotices names)) s)

/-- SET_NOTICE_MASK. -/
def execSetNoticeMask (tag : Byte) (names : Word16) (s : State) : Result :=
  .next (receive (replied tag (setNoticeMask names)) s)

end Sys2Proof.Machine
end

