-- ==== Sys2Proof/Machine/PlanRequests.lean ====
section
/-! DEFINITION. Plan requests and TRIM_POUR (R123 to R125, R138 to R140, R144, R198). -/

namespace Sys2Proof.Machine

/-- A gate setting of a step, 1..31. -/
def pourSetting (b : Byte) : Option Setting := (settingOfByte b).bind fun x => if x = 0 then none else some x

/-- The top-off setting as stored: 0 without a top-off, otherwise 1..31 (R123). -/
def topOffStored (mode : PourMode) (threshold : Word16) (b : Byte) : Option Setting :=
  if mode = .count ∧ threshold ≠ 0 then pourSetting b else some 0

def afterField (w : Word16) : Option Word16 := if w = 0 then none else some w

/-- The record of an APPEND_STEP whose fields are in range (R123 check 1). -/
def stepOfFields (f : StepFields) : Option (Word16 → StepRec) :=
  match spoutOfByte f.spout, holdOfByte f.hold, modeOfByte f.mode, openByOfByte f.openBy, pourSetting f.gateSetting with
  | some spout, some hold, some mode, some openBy, some gateSetting =>
    (topOffStored mode f.topOffThreshold f.topOffSetting).map fun topOffSetting number =>
      { number, kind := .plan, spout, hold, mode
        target := if mode = .count then f.target else 0
        gateSetting
        topOffThreshold := if mode = .count then f.topOffThreshold else 0
        topOffSetting, openBy
        after := afterField f.after
        poured := 0, inTopOff := false, state := .waiting }
  | _, _, _, _, _ => none

/-- The after-link is absent or names a step of the plan (R123 check 2). -/
def afterKnown (s : State) (w : Word16) : Bool := w == 0 || (findStep s w).isSome

def appendStep (f : StepFields) (s : State) : Reply :=
  match stepOfFields f with
  | none => Reply.refuse .badValue s
  | some mk =>
    if !afterKnown s f.after then Reply.refuse .noSuchStep s
    else if Config.planRecords ≤ s.plan.length then Reply.refuse .planFull s
    else Reply.ok (bytes16 (nextNumber s)) (activationTest (joinPlan mk (fun x l => l ++ [x]) s))

/-- A step becomes CANCELLED (R138). -/
def cancelRecord (r : StepRec) (s : State) : State :=
  let s := setStepState r.number .cancelled s
  let s := if r.state = .active then closeUnlessClosed r.spout s else s
  activationTest (afterEnd r s)

def cancelStep (n : Word16) (s : State) : Reply :=
  match findStep s n with
  | none => Reply.refuse .noSuchStep s
  | some r =>
    if r.state = .suspended then Reply.refuse .stepSuspended s
    else if r.finished then Reply.refuse .stepEnded s
    else Reply.ok [] (cancelRecord r s)

def endStep (n : Word16) (s : State) : Reply :=
  match findStep s n with
  | none => Reply.refuse .noSuchStep s
  | some r => if r.pouring then Reply.ok [] (activationTest (enterDone r s)) else Reply.refuse .notActive s

/-! ## PURGE_STEPS (R140) -/

/-- Whether a step number names a finished record. -/
def purged (s : State) (n : Word16) : Bool := s.plan.any fun r => r.number == n && r.finished

/-- An optional reference to a step, absent once the step is purged. -/
def keepUnpurged (s : State) (o : Option Word16) : Option Word16 := o.filter fun n => !purged s n

/-- The finished records leave; after-links and account steps that named them become absent. -/
def purge (s : State) : State :=
  (s.withPlan ((s.plan.filter fun r => !r.finished).map fun r => { r with after := keepUnpurged s r.after })).withAccount
    { a := keepUnpurged s s.account.a, b := keepUnpurged s s.account.b }

def purgeSteps (s : State) : Reply :=
  Reply.ok [byteOfNat (s.plan.countP fun r => r.finished)] (activationTest (purge s))

/-! ## READ_STEP and READ_PLAN (R124, R125) -/

/-- Whether the record is its spout's running step. -/
def isRunning (s : State) (r : StepRec) : Bool := (runningStep s r.spout).map (·.number) == some r.number

/-- The 24 bytes of READ_STEP. -/
def stepData (s : State) (r : StepRec) : List Byte :=
  bytes16 r.number ++ [r.kind.byte, r.spout.byte, holdByte r.hold, r.mode.byte] ++ bytes16 r.target
    ++ [settingByte r.gateSetting] ++ bytes16 r.topOffThreshold ++ [settingByte r.topOffSetting, r.openBy.byte]
    ++ bytes16 (r.after.getD 0) ++ bytes32 r.poured
    ++ [yesNo r.inTopOff, r.state.byte, byteOfNat (s.plan.findIdx fun x => x.number == r.number),
        yesNo (isRunning s r), yesNo (s.account.get r.spout == some r.number)]

def readStep (n : Word16) (s : State) : Reply :=
  match findStep s n with
  | none => Reply.refuse .noSuchStep s
  | some r => Reply.ok (stepData s r) s

/-- One entry of READ_PLAN. -/
def planEntry (r : StepRec) : List Byte := bytes16 r.number ++ [r.state.byte]

def readPlan (start : Byte) (s : State) : Reply :=
  if 31 < start.toNat then Reply.refuse .badValue s
  else if s.plan.length ≤ start.toNat then { code := .endMark, data := [byteOfNat s.plan.length], state := s }
  else Reply.ok (byteOfNat s.plan.length :: ((s.plan.drop start.toNat).take 15).flatMap planEntry) s

/-! ## TRIM_POUR (R144) -/

/-- The trim pour of a request whose fields are in range (R144 check 1). -/
def trimOfFields (f : TrimFields) : Option (Spout × TrimRequest) :=
  match spoutOfByte f.spout, holdOfByte f.hold, pourSetting f.gateSetting, openByOfByte f.openBy with
  | some spout, some hold, some gateSetting, some openBy =>
    some (spout, { hold, target := f.target, gateSetting, openBy })
  | _, _, _, _ => none

/-- Checks 2 to 6 of R144. -/
def trimChecked (sp : Spout) (req : TrimRequest) (s : State) : Reply :=
  if Config.planRecords ≤ s.plan.length then Reply.refuse .planFull s
  else
    match runningStep s sp with
    | none => Reply.ok (bytes16 (nextNumber s) ++ bytes16 0) (activationTest (createTrimAtTail sp req s))
    | some r =>
      if levelFree s sp then
        Reply.ok (bytes16 (nextNumber s) ++ bytes16 r.number) (activationTest (pushRunning sp r req s))
      else if (s.stack.latches.get sp).isNone then { code := .latched, data := [], state := setLatch sp req s }
      else Reply.refuse .trimLatched s

def trimPour (f : TrimFields) (s : State) : Reply :=
  match trimOfFields f with
  | none => Reply.refuse .badValue s
  | some (sp, req) => trimChecked sp req s

/-! ## The commands -/

/-- APPEND_STEP. -/
def execAppendStep (tag : Byte) (f : StepFields) (s : State) : Result :=
  .next (receive (repliedActs tag (appendStep f)) s)

/-- CANCEL_STEP. -/
def execCancelStep (tag : Byte) (number : Word16) (s : State) : Result :=
  .next (receive (repliedActs tag (cancelStep number)) s)

/-- END_STEP. -/
def execEndStep (tag : Byte) (number : Word16) (s : State) : Result :=
  .next (receive (repliedActs tag (endStep number)) s)

/-- PURGE_STEPS. -/
def execPurgeSteps (tag : Byte) (s : State) : Result := .next (receive (repliedActs tag purgeSteps) s)

/-- READ_STEP. -/
def execReadStep (tag : Byte) (number : Word16) (s : State) : Result :=
  .next (receive (replied tag (readStep number)) s)

/-- READ_PLAN. -/
def execReadPlan (tag start : Byte) (s : State) : Result := .next (receive (replied tag (readPlan start)) s)

/-- TRIM_POUR. -/
def execTrimPour (tag : Byte) (f : TrimFields) (s : State) : Result :=
  .next (receive (repliedActs tag (trimPour f)) s)

end Sys2Proof.Machine
end

