-- ==== Sys2Proof/Machine/ReadRequests.lean ====
section
/-! DEFINITION. Requests that read tables and heads (R35, R55, R79, R83, R196). They change nothing. -/

namespace Sys2Proof.Machine

/-- READ_STATION's data. -/
def stationData (address : Byte) (x : Station) : List Byte :=
  [address, yesNo x.present, x.kind.byte, x.unit, x.relayClass.byte]

def readStation (address : Byte) (s : State) : Reply :=
  match stationAt s address with
  | some x => Reply.ok (stationData address x) s
  | none => Reply.refuse .badValue s

/-- A zone table entry in the LOAD_ZONE layout. -/
def Zone.fields (z : Zone) (index : Byte) : ZoneFields :=
  { index, present := z.present, zoneType := z.zoneType.byte, level := levelByte z.level, hold := holdCode z.hold,
    box := z.box, fromZone := z.fromZone, toZone := z.toZone }

/-- READ_ZONE's effective lower max: 0 for an entry that is no HOLD. -/
def lowerMaxShown (s : State) (z : Zone) : Word16 := if z.zoneType = .hold then effLowerMax s z else 0

/-- The 31 bytes of READ_ZONE. -/
def zoneData (s : State) (i : ZoneIx) : List Byte :=
  ((s.zone i).fields (byteOfNat i.val)).bytes
    ++ [ownerCode (s.zone i).owner] ++ bytes16 (lowerMaxShown s (s.zone i)) ++ [yesNo (decide (i.val < s.zones.limit))]

def readZone (index : Byte) (s : State) : Reply :=
  match zoneIx? index with
  | some i => Reply.ok (zoneData s i) s
  | none => Reply.refuse .badValue s

/-- Checks 3 to 7 of R63 would pass (R79). -/
def admits (s : State) (index : Byte) (level : Level) : Bool :=
  match admitZone s index (effectiveLevel s level) with
  | .ok _ => true
  | .error _ => false

/-- QUERY_ZONE's data. -/
def queryData (s : State) (index : Byte) (i : ZoneIx) (level : Level) : List Byte :=
  [yesNo (decide (i.val < s.zones.limit)), (s.zone i).zoneType.byte, levelByte (s.zone i).level,
   yesNo (s.zone i).present, ownerCode (s.zone i).owner, yesNo (admits s index level)]

def queryZone (index level : Byte) (s : State) : Reply :=
  match zoneIx? index, levelOfByte level with
  | some i, some l => Reply.ok (queryData s index i l) s
  | _, _ => Reply.refuse .badValue s

/-- A head's configuration in the LOAD_HEAD layout, byte 13 at 0. -/
def Head.fields (h : Head) (index : Byte) : HeadFields :=
  { index, present := h.present, station := h.station, hold := holdCode h.hold, watch := h.watch, alarm := h.alarm,
    trip := h.trip, hysteresis := h.hysteresis, persistence := h.persistence, spare := 0 }

/-- The 25 bytes of READ_HEAD. -/
def headData (s : State) (i : HeadIx) : List Byte :=
  let h := s.heads[i]
  (h.fields (byteOfNat i.val)).bytes ++ [h.state.byte] ++ bytes16 h.sample
    ++ [yesNo h.sampleValid, byteOfNat h.riseCount, h.riseLevel.byte, byteOfNat h.fallCount, byteOfNat h.missCount,
        yesNo h.sampled, s.cycle.state.byte, yesNo s.cycle.overrun]

def readHead (index : Byte) (s : State) : Reply :=
  match headIx? index with
  | some i => Reply.ok (headData s i) s
  | none => Reply.refuse .badValue s

/-! ## The commands -/

/-- READ_STATION. -/
def execReadStation (tag address : Byte) (s : State) : Result := .next (receive (replied tag (readStation address)) s)

/-- READ_ZONE. -/
def execReadZone (tag index : Byte) (s : State) : Result := .next (receive (replied tag (readZone index)) s)

/-- QUERY_ZONE. -/
def execQueryZone (tag index level : Byte) (s : State) : Result :=
  .next (receive (replied tag (queryZone index level)) s)

/-- READ_HEAD. -/
def execReadHead (tag head : Byte) (s : State) : Result := .next (receive (replied tag (readHead head)) s)

end Sys2Proof.Machine
end

