-- ==== Sys2Proof/Machine/RelayRequests.lean ====
section
/-! DEFINITION. The relay frames MOVE, GATE and PLAIN (R8, R38, R39). -/

namespace Sys2Proof.Machine

/-- A relay frame with a place goes to RELAY by `arrival`, and the arbiter runs; a destination that is no field station
is refused BAD_DEST (R8 checks 3 and 4). -/
def relayTaken (tag dest kind : Byte) (arrival : State → State) (s : State) : State :=
  if fieldAddress dest then arbitrate (arrival s) else pushReady (refusalAnswer tag .badDest dest kind) s

def takeMove (tag dest : Byte) (m : MoveFields) : State → State := relayTaken tag dest kindMove (moveArrival tag dest m)

def takeGate (tag dest : Byte) (g : GateFields) : State → State := relayTaken tag dest kindGate (gateArrival tag dest g)

def takePlain (tag dest : Byte) (data : List Byte) : State → State :=
  relayTaken tag dest kindPlain (plainArrival tag dest data)

/-! ## The commands -/

/-- MOVE. -/
def execMove (tag dest : Byte) (m : MoveFields) (s : State) : Result := .next (receive (takeMove tag dest m) s)

/-- GATE. -/
def execGate (tag dest : Byte) (g : GateFields) (s : State) : Result := .next (receive (takeGate tag dest g) s)

/-- PLAIN; a payload of more than 48 bytes is no frame, and the receiver discards it at its length byte (R3). -/
def execPlain (tag dest : Byte) (data : List Byte) (s : State) : Result :=
  .next (if data.length ≤ Config.maxPayload then receive (takePlain tag dest data) s else discard 2 s)

end Sys2Proof.Machine
end

