-- ==== Sys2Proof/Machine/RunRequests.lean ====
section
/-! DEFINITION. Run control and status requests (chapter 10, R58, R161, R194). -/

namespace Sys2Proof.Machine

/-! ## GET_STATUS (R190, R194) -/

/-- Seven bytes of a spout record. -/
def spoutStatus (r : SpoutRec) : List Byte :=
  [r.state.byte, byteOfNat r.current.val, byteOfNat r.target.val, yesNo r.recovery, yesNo r.overreach,
   lostCauseCode r.lostCause, r.driveFlags]

/-- The demanded setting, 255 while absent. -/
def demandedCode : GateState → Byte
  | .changing d _ => settingByte d
  | .rest _ => 255

/-- Three bytes of a gate record. -/
def gateStatus (g : GateRec) : List Byte := [g.state.byte, settingByte g.confirmed, demandedCode g.state]

/-- The 45 bytes of GET_STATUS. -/
def statusData (s : State) : List Byte :=
  [s.runc.state.byte, haltCauseCode s.runc.haltCause, allStopCode s.runc.allStop]
    ++ bytes16 (noticeSet s.notices.flags) ++ bytes16 (noticeSet s.notices.mask)
    ++ [levelByte s.console, yesNo s.pins.keyActive]
    ++ spoutStatus s.spouts.a ++ spoutStatus s.spouts.b ++ gateStatus s.gates.a ++ gateStatus s.gates.b
    ++ s.holdDust.toList.map Dust.byte ++ [byteOfNat s.relayQueue.length] ++ bytes16 s.stepCounter ++ bytes32 s.unbilled

def getStatus (s : State) : Reply := Reply.ok (statusData s) s

/-! ## RUN (R36, R176, R177) -/

/-- The station kinds every fitted spout needs one of, with their item numbers (R36, R194). -/
def spoutItems : List (Byte × StationKind) := [(1, .spoutDrive), (2, .feedGate), (3, .beltScale)]

/-- The first item of a spout that is not exactly one station. -/
def spoutItemFault (s : State) (sp : Spout) : Option (List Byte) :=
  (spoutItems.find? fun x => stationCount s x.2 sp.byte != 1).map fun x => [x.1, sp.byte]

/-- A present head whose station is in the map as its dust head. -/
def headStationGood (s : State) (i : HeadIx) : Bool :=
  !(s.heads[i]).present ||
    match stationAt s (s.heads[i]).station with
    | some x => x.serves .dustHead (byteOfNat i.val)
    | none => false

/-- The first head item that fails. -/
def headItemFault (s : State) : Option (List Byte) :=
  ((List.finRange 16).find? fun i => !headStationGood s i).map fun i => [4, byteOfNat i.val]

/-- The completeness condition, with the staged spouts-fitted value: the first item that fails (R36). -/
def mapFault (s : State) : Option (List Byte) :=
  match spoutItemFault s .a with
  | some d => some d
  | none =>
    match if s.settings.staged.spoutsFitted = 2 then spoutItemFault s .b else none with
    | some d => some d
    | none => headItemFault s

/-- The first of the two settings tests that fails (R176). -/
def settingsFault (x : Settings) : Option (List Byte) :=
  if x.positionPeriod.toNat ≤ x.replyTimeout.toNat then some [1]
  else if x.scalePeriod.toNat < x.positionPeriod.toNat then some [2]
  else none

/-- The staged settings are taken into use (R182). -/
def takeSettings (s : State) : State := s.withSettings { s.settings with inUse := s.settings.staged }

/-- Both poll timers start as if they had just expired (R27). -/
def startTimers (s : State) : State :=
  scalePolls (positionPolls (s.withTimers
    { position := some s.settings.inUse.positionPeriod.toNat, scale := some s.settings.inUse.scalePeriod.toNat }))

/-- Entry to RUN from CONFIG, in the order of R177. Step 4's evaluation finds no cause: every spout is UNKNOWN. -/
def enterRun (s : State) : State :=
  let s := s.withRunc { s.runc with state := .run }
  let s := invalidateBaselines (takeSettings s)
  let s := (fittedSpouts s).foldl (fun t sp => postClose sp t) s
  activationTest (startCycle (startTimers s))

def runRequest (s : State) : Reply :=
  match s.runc.state with
  | .run => Reply.ok [] s
  | .halt => Reply.refuse .halted s
  | .config =>
    match mapFault s with
    | some d => { code := .mapIncomplete, data := d, state := s }
    | none =>
      match settingsFault s.settings.staged with
      | some d => { code := .badValue, data := d, state := s }
      | none => Reply.ok [] (enterRun s)

/-! ## HALT and RESUME (R178, R181) -/

def haltRequest (s : State) : Reply :=
  match s.runc.state with
  | .run => Reply.ok [] (haltEntry .request s)
  | .halt => Reply.ok [] s
  | .config => Reply.refuse .notRunning s

/-- Entry to RUN from HALT, in the order of R181. The block of cause HALT ends with the run state; PSEQ's tests follow. -/
def leaveHalt (s : State) : State :=
  let s := s.withRunc { s.runc with state := .run, haltCause := none }
  activationTest (startTimers (invalidateBaselines (takeSettings s)))

def resumeRequest (s : State) : Reply :=
  match s.runc.state with
  | .run => Reply.ok [] s
  | .config => Reply.refuse .notRunning s
  | .halt =>
    match unclosedGate s with
    | some sp => { code := .gatesNotClosed, data := [sp.byte], state := s }
    | none => Reply.ok [] (leaveHalt s)

/-! ## Console level and clock (R58, R161) -/

def setConsoleLevel (level : Byte) (s : State) : Reply :=
  match levelOfByte level with
  | none => Reply.refuse .badValue s
  | some l => if l = 0 ∧ s.pins.keyActive = false then Reply.refuse .keyRequired s else Reply.ok [] (s.withConsole l)

def setClock (minutes : Word32) (s : State) : Reply := Reply.ok [] (s.withClock { minutes, ticks := 0 })

/-! ## The commands -/

/-- GET_STATUS. -/
def execGetStatus (tag : Byte) (s : State) : Result := .next (receive (replied tag getStatus) s)

/-- RUN. -/
def execRun (tag : Byte) (s : State) : Result := .next (receive (repliedActs tag runRequest) s)

/-- HALT. -/
def execHalt (tag : Byte) (s : State) : Result := .next (receive (repliedActs tag haltRequest) s)

/-- RESUME. -/
def execResume (tag : Byte) (s : State) : Result := .next (receive (repliedActs tag resumeRequest) s)

/-- RESTART. -/
def execRestart (tag : Byte) (s : State) : Result := .next (receive (takeRestart tag) s)

/-- SET_CONSOLE_LEVEL. -/
def execSetConsoleLevel (tag level : Byte) (s : State) : Result := .next (receive (replied tag (setConsoleLevel level)) s)

/-- SET_CLOCK. -/
def execSetClock (tag : Byte) (minutes : Word32) (s : State) : Result :=
  .next (receive (replied tag (setClock minutes)) s)

end Sys2Proof.Machine
end

