-- ==== Sys2Proof/Machine/Frames.lean ====
section
/-! DEFINITION. SUPERVISOR_FRAME: any complete frame of the supervisor line (R8, R9, R191), and the supervisor line's
other events. -/

namespace Sys2Proof.Machine

/-- What becomes of the frame of a request once it holds an output place (R9). A command that is no request is carried
by no frame. -/
def carriedOut : Instr → State → State
  | .move t d m => takeMove t d m
  | .gate t d g => takeGate t d g
  | .plain t d data => takePlain t d data
  | .getStatus t => replied t getStatus
  | .run t => repliedActs t runRequest
  | .halt t => repliedActs t haltRequest
  | .resume t => repliedActs t resumeRequest
  | .restart t => takeRestart t
  | .setConsoleLevel t l => replied t (setConsoleLevel l)
  | .setClock t m => replied t (setClock m)
  | .loadStation t a p k u c => replied t (loadStation a p k u c)
  | .loadZone t z => replied t (loadZone z)
  | .setZoneLimit t l => replied t (setZoneLimit l)
  | .loadHead t h => replied t (loadHead h)
  | .setTiming t a b c d => replied t (setTiming a b c d)
  | .setLimits t n c d => replied t (setLimits n c d)
  | .readStation t a => replied t (readStation a)
  | .readZone t i => replied t (readZone i)
  | .queryZone t i l => replied t (queryZone i l)
  | .readHead t i => replied t (readHead i)
  | .setFreeboard t h o => repliedActs t (setFreeboard h o)
  | .sampleNow t => repliedActs t sampleNow
  | .ackTrip t i => repliedActs t (ackTrip i)
  | .appendStep t f => repliedActs t (appendStep f)
  | .cancelStep t n => repliedActs t (cancelStep n)
  | .endStep t n => repliedActs t (endStep n)
  | .purgeSteps t => repliedActs t purgeSteps
  | .readStep t n => replied t (readStep n)
  | .readPlan t i => replied t (readPlan i)
  | .trimPour t f => repliedActs t (trimPour f)
  | .openBill t n => replied t (openBill n)
  | .closeBill t => replied t closeBill
  | .readBillOpen t n => replied t (readBillOpen n)
  | .readBillNext t => replied t readBillNext
  | .readBillEnd t => repliedActs t readBillEnd
  | .issueBill t n => replied t (issueBill n)
  | .clearUnbilled t => replied t clearUnbilled
  | .nextNotice t => replied t nextNotice
  | .clearNotices t n => replied t (clearNotices n)
  | .setNoticeMask t n => replied t (setNoticeMask n)
  | .powerOn _ _ | .restartInput | .restartInputRelease | .maintenanceKeyInactive | .maintenanceKeyActive
  | .supervisorFrame _ _ | .supervisorFrameLengthDiscard | .supervisorFrameTimeLimit | .upstreamFrameStart
  | .upstreamFrameSent | .fieldFrameReceived _ _ | .fieldFrameLengthDiscard | .fieldFrameTimeLimit | .fieldFrameSent
  | .replyTimeout | .positionTimerExpiry | .scaleTimerExpiry | .cycleTimerExpiry | .clockMinute
  | .startByteReceived _ | .fieldCheckWordMismatch => id

/-- A taken frame is refused by R8, answered BAD_VALUE by R191, or carried out. -/
def takeFrame (f : Frame) (s : State) : State :=
  match routeFrame f with
  | .refuse reason subject => pushReady (refusalAnswer f.tag reason subject f.kind) s
  | .badValue => pushReady (replyAnswer f.tag .badValue []) s
  | .command c => carriedOut c s

/-! ## The commands -/

/-- SUPERVISOR_FRAME: a frame and the check word that came with it. -/
def execSupervisorFrame (f : Frame) (check : Word16) (s : State) : Result :=
  .next
    (if ¬ f.wf then discard 2 s
    else if check = f.check then receive (takeFrame f) s
    else receiveDamaged s)

/-- SUPERVISOR_FRAME_LENGTH_DISCARD. -/
def execSupervisorFrameLengthDiscard (s : State) : Result := .next (discard 2 s)

/-- SUPERVISOR_FRAME_TIME_LIMIT; only a frame in progress can reach it. -/
def execSupervisorFrameTimeLimit (s : State) : Result :=
  .next
    (match s.sport.supRx with
    | .hunt => s
    | .frame _ => discard 3 s)

/-- UPSTREAM_FRAME_START. -/
def execUpstreamFrameStart (s : State) : Result := .next (startUpstream s)

/-- UPSTREAM_FRAME_SENT. -/
def execUpstreamFrameSent (s : State) : Result := .next (endUpstream s)

/-- The receiver of a line after a start byte in HUNT (R3); in FRAME the byte is ordinary data. -/
def Receiver.start : Receiver → Receiver
  | .hunt => .frame 0
  | .frame c => .frame c

/-- START_BYTE_RECEIVED. -/
def execStartByteReceived (line : Line) (s : State) : Result :=
  .next
    (match line with
    | .supervisor => if s.pins.restartAsserted then s else setSupRx s.sport.supRx.start s
    | .field => if fieldDeaf s then s else setFldRx s.sport.fldRx.start s)

end Sys2Proof.Machine
end

