-- ==== Sys2Proof/Machine/Dispatch.lean ====
section
/-! DEFINITION. The effect of every command on everything but the queue. -/

namespace Sys2Proof.Machine

/-- What a command does. -/
def exec (i : Instr) (s : State) : Host.Outcome State Fault Refusal :=
  match i with
  | .powerOn strapClk strapBaud => Sys2Proof.Machine.execPowerOn strapClk strapBaud s
  | .restartInput => Sys2Proof.Machine.execRestartInput s
  | .restartInputRelease => Sys2Proof.Machine.execRestartInputRelease s
  | .maintenanceKeyInactive => Sys2Proof.Machine.execMaintenanceKeyInactive s
  | .maintenanceKeyActive => Sys2Proof.Machine.execMaintenanceKeyActive s
  | .supervisorFrame f check => Sys2Proof.Machine.execSupervisorFrame f check s
  | .supervisorFrameLengthDiscard => Sys2Proof.Machine.execSupervisorFrameLengthDiscard s
  | .supervisorFrameTimeLimit => Sys2Proof.Machine.execSupervisorFrameTimeLimit s
  | .upstreamFrameStart => Sys2Proof.Machine.execUpstreamFrameStart s
  | .upstreamFrameSent => Sys2Proof.Machine.execUpstreamFrameSent s
  | .move tag dest m => Sys2Proof.Machine.execMove tag dest m s
  | .gate tag dest g => Sys2Proof.Machine.execGate tag dest g s
  | .plain tag dest data => Sys2Proof.Machine.execPlain tag dest data s
  | .getStatus tag => Sys2Proof.Machine.execGetStatus tag s
  | .run tag => Sys2Proof.Machine.execRun tag s
  | .halt tag => Sys2Proof.Machine.execHalt tag s
  | .resume tag => Sys2Proof.Machine.execResume tag s
  | .restart tag => Sys2Proof.Machine.execRestart tag s
  | .setConsoleLevel tag level => Sys2Proof.Machine.execSetConsoleLevel tag level s
  | .setClock tag minutes => Sys2Proof.Machine.execSetClock tag minutes s
  | .loadStation tag address present kind unit relayClass => Sys2Proof.Machine.execLoadStation tag address present kind unit relayClass s
  | .loadZone tag z => Sys2Proof.Machine.execLoadZone tag z s
  | .setZoneLimit tag limit => Sys2Proof.Machine.execSetZoneLimit tag limit s
  | .loadHead tag h => Sys2Proof.Machine.execLoadHead tag h s
  | .setTiming tag reply position scale cycle => Sys2Proof.Machine.execSetTiming tag reply position scale cycle s
  | .setLimits tag spouts alarmCap maxDelta => Sys2Proof.Machine.execSetLimits tag spouts alarmCap maxDelta s
  | .readStation tag address => Sys2Proof.Machine.execReadStation tag address s
  | .readZone tag index => Sys2Proof.Machine.execReadZone tag index s
  | .queryZone tag index level => Sys2Proof.Machine.execQueryZone tag index level s
  | .readHead tag head => Sys2Proof.Machine.execReadHead tag head s
  | .setFreeboard tag hold offset => Sys2Proof.Machine.execSetFreeboard tag hold offset s
  | .sampleNow tag => Sys2Proof.Machine.execSampleNow tag s
  | .ackTrip tag head => Sys2Proof.Machine.execAckTrip tag head s
  | .appendStep tag f => Sys2Proof.Machine.execAppendStep tag f s
  | .cancelStep tag number => Sys2Proof.Machine.execCancelStep tag number s
  | .endStep tag number => Sys2Proof.Machine.execEndStep tag number s
  | .purgeSteps tag => Sys2Proof.Machine.execPurgeSteps tag s
  | .readStep tag number => Sys2Proof.Machine.execReadStep tag number s
  | .readPlan tag start => Sys2Proof.Machine.execReadPlan tag start s
  | .trimPour tag f => Sys2Proof.Machine.execTrimPour tag f s
  | .openBill tag number => Sys2Proof.Machine.execOpenBill tag number s
  | .closeBill tag => Sys2Proof.Machine.execCloseBill tag s
  | .readBillOpen tag number => Sys2Proof.Machine.execReadBillOpen tag number s
  | .readBillNext tag => Sys2Proof.Machine.execReadBillNext tag s
  | .readBillEnd tag => Sys2Proof.Machine.execReadBillEnd tag s
  | .issueBill tag number => Sys2Proof.Machine.execIssueBill tag number s
  | .clearUnbilled tag => Sys2Proof.Machine.execClearUnbilled tag s
  | .nextNotice tag => Sys2Proof.Machine.execNextNotice tag s
  | .clearNotices tag names => Sys2Proof.Machine.execClearNotices tag names s
  | .setNoticeMask tag names => Sys2Proof.Machine.execSetNoticeMask tag names s
  | .fieldFrameReceived f check => Sys2Proof.Machine.execFieldFrameReceived f check s
  | .fieldFrameLengthDiscard => Sys2Proof.Machine.execFieldFrameLengthDiscard s
  | .fieldFrameTimeLimit => Sys2Proof.Machine.execFieldFrameTimeLimit s
  | .fieldFrameSent => Sys2Proof.Machine.execFieldFrameSent s
  | .replyTimeout => Sys2Proof.Machine.execReplyTimeout s
  | .positionTimerExpiry => Sys2Proof.Machine.execPositionTimerExpiry s
  | .scaleTimerExpiry => Sys2Proof.Machine.execScaleTimerExpiry s
  | .cycleTimerExpiry => Sys2Proof.Machine.execCycleTimerExpiry s
  | .clockMinute => Sys2Proof.Machine.execClockMinute s
  | .startByteReceived line => Sys2Proof.Machine.execStartByteReceived line s
  | .fieldCheckWordMismatch => Sys2Proof.Machine.execFieldCheckWordMismatch s

end Sys2Proof.Machine
end

