-- ==== Sys2Proof/Machine/Step.lean ====
section
/-! DEFINITION. One step: the command at the front of the queue, or on an empty queue the 1 ms tick and the timers that
fall due (log 4). -/

namespace Sys2Proof.Machine

/-- A timer that runs counts one tick down. -/
def countDown (t : Option Nat) : Option Nat := t.map (· - 1)

/-- A frame clock counts one tick. -/
def Receiver.tick : Receiver → Receiver
  | .hunt => .hunt
  | .frame c => .frame (c + 1)

/-- The reply timer counts one tick down. -/
def Engine.tick : Engine → Engine
  | .awaiting t n => .awaiting t (n - 1)
  | e => e

/-- The 1 ms tick (R184): every clock and timer of the part moves by one. -/
def tick (s : State) : State :=
  { s with
    sport := { s.sport with supRx := s.sport.supRx.tick, fldRx := s.sport.fldRx.tick }
    line := { s.line with engine := s.line.engine.tick }
    timers := { position := countDown s.timers.position, scale := countDown s.timers.scale }
    cycle := { s.cycle with timer := countDown s.cycle.timer }
    clock := { s.clock with ticks := s.clock.ticks + 1 } }

/-- A frame clock at its limit (R3). -/
def Receiver.overdue : Receiver → Bool
  | .hunt => false
  | .frame c => Config.frameLimitMs ≤ c

/-- The reply timer at its end. -/
def Engine.overdue : Engine → Bool
  | .awaiting _ 0 => true
  | _ => false

/-- Each expiry and whether it is due. -/
def expiries (s : State) : List (Bool × Instr) :=
  [(s.sport.supRx.overdue, .supervisorFrameTimeLimit),
   (s.sport.fldRx.overdue, .fieldFrameTimeLimit),
   (s.line.engine.overdue, .replyTimeout),
   (s.timers.position == some 0, .positionTimerExpiry),
   (s.timers.scale == some 0, .scaleTimerExpiry),
   (s.cycle.timer == some 0, .cycleTimerExpiry),
   (decide (Config.ticksPerMinute ≤ s.clock.ticks), .clockMinute)]

/-- The expiries that are due. -/
def dueTimers (s : State) : List Instr := (expiries s).filterMap fun x => if x.1 then some x.2 else none

/-- Several expiries due at once: which is taken first is a free choice (log 5). -/
def chooseDue (c : Instr) (l : List Instr) (s : State) : Result :=
  exec ((c :: l).getD (Config.dueChoice s.freeCount % (l.length + 1)) c) (s.withFreeCount (s.freeCount + 1))

/-- The empty queue: a due expiry is taken, else the tick passes. -/
def idle (s : State) : Result :=
  match dueTimers s with
  | [] => .next (tick s)
  | [c] => exec c s
  | c :: l => chooseDue c l s

/-- One step. -/
def step (s : State) : Host.Outcome State Fault Refusal :=
  match s.pending with
  | c :: rest => exec c (s.withPending rest)
  | [] => idle s

/-- The state with the command that a table word spells in front of the queue; unchanged where it spells none. -/
def State.withFetchWord (s : State) (nbits w : Nat) : State :=
  match decodeTableWord nbits w with
  | some c => s.withPending (c :: s.pending)
  | none => s

end Sys2Proof.Machine
end

