-- ==== Sys2Proof/Safety.lean ====
section
/-! DEFINITION. The words the statements use: a frame that is taken, the fit of a frame read straight from the spec's
tables, and the properties of the part that every step keeps. -/

namespace Sys2Proof.Machine

/-! ## Taking a frame and answering it -/

/-- A complete, good supervisor frame is taken in this state: the restart input is released, no RESTART is pending and
an output place is free (R11, R15, R183). -/
structure Taken (s : State) : Prop where
  released  : s.pins.restartAsserted = false
  noRestart : s.sport.restartPending = false
  place     : s.placesUsed < Config.outputPlaces

/-- The state a taken frame finds: the supervisor receiver back in HUNT (R3). -/
def heard (s : State) : State := setSupRx .hunt s

/-- The state with one REPLY more at the end of the send order, its frame received (R10). -/
def replyTo (tag : Byte) (code : Code) (data : List Byte) (s : State) : State :=
  pushReady (replyAnswer tag code data) (heard s)

/-- The state with one REFUSAL more at the end of the send order, its frame received (R8, R50). -/
def refusalTo (tag : Byte) (reason : Code) (subject kind : Byte) (s : State) : State :=
  pushReady (refusalAnswer tag reason subject kind) (heard s)

/-! ## Fit of a frame and of a request, from the tables of R8, R191 and R194 to R199 -/

/-- Byte `i` of a payload. -/
def byteAt (p : List Byte) (i : Nat) : Nat := (p.getD i 0).toNat

/-- The payload fits its kind (R8 check 5). -/
def payloadFits (f : Frame) : Bool :=
  if f.kind = 0x10 then f.payload.length != 0
  else if f.kind = 0x20 then
    f.payload.length == 14 && decide (byteAt f.payload 0 ≤ 1) && decide (byteAt f.payload 3 ≤ 3)
  else if f.kind = 0x21 then
    f.payload.length == 3 && decide (byteAt f.payload 0 ≤ 1) && decide (byteAt f.payload 1 ≤ 3)
      && decide (byteAt f.payload 2 ≤ 31)
  else true

/-- The four kinds of supervisor frame. -/
def supervisorKind (k : Byte) : Bool := k == 0x10 || k == 0x20 || k == 0x21 || k == 0x22

/-- The destination suits the kind (R8 checks 3 and 4). -/
def destinationSuits (f : Frame) : Bool :=
  decide (f.dest.toNat < 61) && (if f.kind = 0x10 then f.dest == 0 else f.dest != 0)

/-- The field length of each request code of the catalogue (R194 to R199). -/
def requestLength (code : Byte) : Option Nat :=
  if code ∈ [0x01#8, 0x02, 0x03, 0x04, 0x05, 0x28, 0x33, 0x41, 0x43, 0x44, 0x46, 0x50] then some 0
  else if code ∈ [0x06#8, 0x12, 0x18, 0x19, 0x1B, 0x29, 0x35] then some 1
  else if code ∈ [0x1A#8, 0x31, 0x32, 0x34, 0x40, 0x42, 0x45, 0x51, 0x52] then some 2
  else if code = 0x20 then some 3
  else if code ∈ [0x07#8, 0x15] then some 4
  else if code = 0x10 then some 5
  else if code = 0x36 then some 6
  else if code = 0x14 then some 8
  else if code = 0x30 then some 12
  else if code = 0x13 then some 14
  else if code = 0x11 then some 27
  else none

/-- The fit checks of R191: a code of the catalogue, its field length, and a yes/no byte of 0 or 1 where the layout has
one (byte 1 of LOAD_STATION, LOAD_ZONE and LOAD_HEAD). -/
def requestFits (code : Byte) (fields : List Byte) : Bool :=
  requestLength code == some fields.length
    && (!decide (code ∈ [0x10#8, 0x11, 0x13]) || decide (byteAt fields 1 ≤ 1))

/-! ## The completeness condition (R36) -/

/-- Exactly one drive, one gate and one scale of the spout are in the map. -/
def SpoutStations (s : State) (sp : Spout) : Prop :=
  stationCount s .spoutDrive sp.byte = 1 ∧ stationCount s .feedGate sp.byte = 1 ∧ stationCount s .beltScale sp.byte = 1

/-- Every present head's station is in the map as its dust head. -/
def HeadStations (s : State) : Prop :=
  ∀ i : HeadIx, (s.heads[i]).present = true →
    ∃ x, stationAt s (s.heads[i]).station = some x ∧ x.serves .dustHead (byteOfNat i.val) = true

/-- The map is complete for the staged spouts-fitted value. -/
def MapComplete (s : State) : Prop :=
  SpoutStations s .a ∧ (s.settings.staged.spoutsFitted = 2 → SpoutStations s .b) ∧ HeadStations s

/-- The items of the completeness condition in the order they are tested: whether the item fails, its number, and the spout
or head index concerned (R36, R194). -/
def mapItems (s : State) : List (Bool × Byte × Byte) :=
  let items := fun sp : Spout =>
    [(stationCount s .spoutDrive sp.byte != 1, 1#8, sp.byte), (stationCount s .feedGate sp.byte != 1, 2, sp.byte),
     (stationCount s .beltScale sp.byte != 1, 3, sp.byte)]
  items .a ++ (if s.settings.staged.spoutsFitted = 2 then items .b else [])
    ++ (List.finRange 16).map fun i : HeadIx =>
      ((s.heads[i]).present && !(match stationAt s (s.heads[i]).station with
        | some x => x.serves .dustHead (byteOfNat i.val)
        | none => false), 4, byteOfNat i.val)

/-- The two settings tests of R176. -/
def SettingsAgree (x : Settings) : Prop :=
  x.replyTimeout.toNat < x.positionPeriod.toNat ∧ x.positionPeriod.toNat ≤ x.scalePeriod.toNat

/-! ## Check tables, row by row as the spec lists them -/

/-- A row of a check table: whether the check fails, the reason, the subject. -/
abbrev Check := Bool × Code × Byte

/-- The first check that fails. -/
def firstFailure (l : List Check) : Option (Code × Byte) := (l.find? fun x => x.1).map fun x => x.2

/-- The entry at a zone index byte; an absent one above 63. -/
def zoneAt (s : State) (b : Byte) : Zone :=
  match zoneIx? b with
  | some i => s.zone i
  | none => Zone.initial

/-- The larger number of two levels (R59). -/
def largerLevel (x y : Level) : Nat := max x.val y.val

/-- A zone is a HOLD zone whose hold is at TRIP. -/
def overTrip (s : State) (z : Zone) : Bool :=
  z.zoneType == .hold && (match z.hold with | some h => s.holdDust[h] == .trip | none => false)

/-- The hold number of a HOLD zone, else 0. -/
def zoneHold (z : Zone) : Byte := match z.hold with | some h => byteOfNat (h.val + 1) | none => 0

/-- A spout that is LOST or on a recovery move (R64). -/
def recovering (r : SpoutRec) : Bool := r.state == .lost || (r.state == .moving && r.recovery)

/-- The MOVE check sequence, checks 1 to 15 (R63 to R67). -/
def moveTable (s : State) (m : MoveFields) : List Check :=
  let r := s.spouts.get m.spout
  let eff := largerLevel m.level s.console
  let z := zoneAt s m.target
  let route := zoneAt s m.route
  let rec_ := recovering r
  let astray := r.state == .moving && m.target.toNat != r.target.val
  let change := !rec_ && m.target.toNat != r.current.val
  let stay := !rec_ && m.target.toNat == r.current.val
  let sp := m.spout.byte
  [(s.runc.state == .config, .notRunning, 0),
   (s.runc.state == .halt, .halted, 0),
   (r.state == .unknown, .spoutUnknown, sp),
   (m.target == 0, .nullZone, 0),
   (decide (s.zones.limit ≤ m.target.toNat), .zoneLimit, m.target),
   (z.zoneType == .route, .zoneType, m.target),
   (decide (z.level.val < eff), .zoneLevel, m.target),
   (!z.present, .zoneAbsent, m.target),
   (rec_ && eff != 0, .spoutLost, sp),
   (rec_ && astray, .spoutMoving, byteOfNat r.target.val),
   (!rec_ && !(decide (z.box.railMin.toNat ≤ m.rail.toNat) && decide (m.rail.toNat ≤ z.box.railMax.toNat)), .outOfZone, 0),
   (!rec_ && !(decide (z.box.slewMin.toInt ≤ m.slew.toInt) && decide (m.slew.toInt ≤ z.box.slewMax.toInt)), .outOfZone, 1),
   (!rec_ && !(decide (z.box.reachMin.toNat ≤ m.reach.toNat) && decide (m.reach.toNat ≤ z.box.reachMax.toNat)), .outOfZone, 2),
   (!rec_ && !(decide (z.box.lowerMin.toNat ≤ m.lower.toNat) && decide (m.lower.toNat ≤ (effLowerMax s z).toNat)), .outOfZone, 3),
   (!rec_ && astray, .spoutMoving, byteOfNat r.target.val),
   (change && (s.gates.get m.spout).state != .rest .closed, .gateOpen, sp),
   (change && s.plan.any (fun q => q.spout == m.spout && q.state == .active), .stepActive, sp),
   (change && m.route == 0, .routeNone, 0),
   (change && decide (s.zones.limit ≤ m.route.toNat), .routeLimit, m.route),
   (change && route.zoneType != .route, .routeType, m.route),
   (change && decide (route.level.val < eff), .routeLevel, m.route),
   (change && !route.present, .routeAbsent, m.route),
   (change && (route.fromZone.toNat != r.current.val || route.toZone != m.target), .routeMismatch, m.route),
   (change && overTrip s z, .dustTrip, zoneHold z),
   (z.owner == some (otherSpout m.spout), .zoneClaimed, m.target),
   (stay && overTrip s (s.zone r.current) && decide (r.position.lower.toNat < m.lower.toNat), .dustTrip,
     zoneHold (s.zone r.current))]

/-- The class of a MOVE that passes (R64, R65). -/
def moveClass (s : State) (m : MoveFields) : MoveClass :=
  let r := s.spouts.get m.spout
  if recovering r then .recovery else if m.target.toNat = r.current.val then .sameZone else .zoneChange

/-- The spout has a step in this state. -/
def hasStep (s : State) (sp : Spout) (x : StepState) : Bool := s.plan.any fun q => q.spout == sp && q.state == x

/-- The cause of a fitted spout's pour block, 1 to 4, or 0 (R107). -/
def blockCause (s : State) (sp : Spout) : Byte :=
  let r := s.spouts.get sp
  if !fitted s sp then 0
  else if overTrip s (s.zone r.current) then 1
  else if r.overreach then 2
  else if r.state = .lost then 3
  else if s.runc.state = .halt then 4
  else 0

/-- The GATE request check of a setting 1..31 (R112). -/
def gateTable (s : State) (sp : Spout) : List Check :=
  [(s.runc.state == .config, .notRunning, 0),
   (s.runc.state == .halt, .halted, 0),
   ((s.gates.get sp).state == .rest .unsure, .gateUnsure, sp.byte),
   (!(hasStep s sp .active || hasStep s sp .held), .noStep, sp.byte),
   (blockCause s sp != 0, .pourBlocked, blockCause s sp),
   ((match pouringStep s sp with | some q => q.state == .held | none => true), .noStep, sp.byte)]

/-- The map entry a relay frame goes to; an absent one outside 1..60. -/
def stationEntryAt (s : State) (dest : Byte) : Station := (stationAt s dest).getD Station.initial

/-- The station kind and the spout that a MOVE or a GATE needs. -/
def RelayAsk.needs : RelayAsk → Option (StationKind × Spout)
  | .move m => some (.spoutDrive, m.spout)
  | .gate g => some (.feedGate, g.spout)
  | .plain => none

/-- A MOVE or a GATE above 0, which only RUN admits. -/
def RelayAsk.needsRun : RelayAsk → Bool
  | .move _ => true
  | .gate g => g.setting != 0
  | .plain => false

/-- The arrival checks 1 to 6 (R38). -/
def arrivalTable (s : State) (tag dest : Byte) (ask : RelayAsk) : List Check :=
  let x := stationEntryAt s dest
  [(decide (8 ≤ s.relayQueue.length), .relayFull, 8),
   (s.relayQueue.any (fun e => e.tag == tag), .tagInUse, tag),
   (!x.present, .noStation, dest),
   (match ask.needs with
    | some (k, _) => x.kind != k
    | none => x.kind == .spoutDrive || x.kind == .feedGate, .wrongKind, 1),
   (match ask.needs with | some (_, sp) => x.unit != sp.byte | none => false, .wrongKind, 2),
   (match ask.needs with | some (_, sp) => !fitted s sp | none => false, .wrongKind, 3),
   (ask.needs.isNone && x.relayClass == .blocked, .relayBlocked, dest),
   (ask.needsRun && s.runc.state == .config, .notRunning, 0),
   (ask.needsRun && s.runc.state == .halt, .halted, 0)]

/-! ## Relays at arrival and at dispatch -/

/-- The state after a relay frame joined the relay queue in state QUEUED, its output place kept (R37, R39). -/
def queued (tag dest : Byte) (body : RelayBody) (s : State) : State :=
  { heard s with
    relayQueue := s.relayQueue ++ [{ tag, dest, body, onLine := false }]
    sport := { (heard s).sport with reserved := s.sport.reserved ++ [tag] } }

/-- The dispatch recheck (R40 to R42): the map checks of the arrival again, then those of the entry's kind. -/
def dispatchTable (s : State) (e : RelayEntry) : List Check :=
  ((arrivalTable s e.tag e.dest e.body.ask).drop 2).take 5 ++
    match e.body with
    | .plain _ => []
    | .gate g _ _ => if g.setting = 0 then [] else gateTable s g.spout
    | .move m cls _ =>
      let r := s.spouts.get m.spout
      [((match cls with
          | .sameZone => r.current.val != m.target.toNat
          | _ => !((r.state == .moving && r.target.val == m.target.toNat)
              || (r.state == .settled && r.current.val == m.target.toNat))), .targetDropped, m.target),
       (cls == .zoneChange && overTrip s (zoneAt s m.target), .dustTrip, zoneHold (zoneAt s m.target)),
       (cls == .sameZone && overTrip s (s.zone r.current) && decide (r.position.lower.toNat < m.lower.toNat), .dustTrip,
         zoneHold (s.zone r.current))]

/-- The setting limit of a spout's step (R110): its gate setting, or its top-off setting once in top-off, and over a hold at
ALARM not above the alarm cap in use. -/
def capNumber (s : State) (r : StepRec) : Nat :=
  let base := if r.inTopOff then r.topOffSetting.val else r.gateSetting.val
  if s.holdDust[r.hold] = .alarm then min base s.settings.inUse.alarmCap.val else base

/-! ## Ends of transactions (R14, R19, R20) -/

/-- The command ends the transaction that awaits its answer: a good field frame that matches it, or the reply timer. -/
inductive Ends (s : State) (t : Transaction) : Instr → Option (List Byte) → Prop
  | answered (f : Frame) (n : Nat) : s.line.engine = .awaiting t n → s.pins.restartAsserted = false → f.wf = true →
      f.dest = 0 → (1 ≤ f.source.toNat ∧ f.source.toNat ≤ 60) → f.kind = 0xC0 → f.payload ≠ [] →
      f.source = t.station → f.tag = t.fieldTag → Ends s t (.fieldFrameReceived f f.check) (some f.payload)
  | silent (n : Nat) : s.line.engine = .awaiting t n → Ends s t .replyTimeout none

/-- The answer's status is OK. -/
def answeredOk (answer : Option (List Byte)) : Prop := ∃ rest, answer = some (0 :: rest)

/-- The answer's status is REJECT. -/
def answeredReject (answer : Option (List Byte)) : Prop := ∃ rest, answer = some (3 :: rest)

/-- A position answer's payload (chapter 1). -/
def positionPayload (p : Position) (flags : Byte) : List Byte :=
  0 :: (bytes32 p.rail ++ bytes16 p.slew ++ bytes16 p.reach ++ bytes16 p.lower ++ [flags])

/-! ## Travel (R56, R60, R71 to R76) -/

/-- A position lies inside a zone's loaded limits; slew is signed (R56). -/
def Within (p : Position) (b : Box) : Prop :=
  (b.railMin.toNat ≤ p.rail.toNat ∧ p.rail.toNat ≤ b.railMax.toNat) ∧
  (b.slewMin.toInt ≤ p.slew.toInt ∧ p.slew.toInt ≤ b.slewMax.toInt) ∧
  (b.reachMin.toNat ≤ p.reach.toNat ∧ p.reach.toNat ≤ b.reachMax.toNat) ∧
  (b.lowerMin.toNat ≤ p.lower.toNat ∧ p.lower.toNat ≤ b.lowerMax.toNat)

/-- The effective lower max of a zone over a hold (R60). -/
def depthLimit (s : State) (z : Zone) : Nat :=
  match z.hold with
  | some h => max (z.box.lowerMax.toNat - (s.freeboard[h]).toNat) z.box.lowerMin.toNat
  | none => z.box.lowerMax.toNat

/-- The overreach test on a record (R78). -/
def Deep (s : State) (r : SpoutRec) : Prop :=
  r.state = .settled ∧ (s.zone r.current).zoneType = .hold ∧ r.posValid = true ∧
    depthLimit s (s.zone r.current) < r.position.lower.toNat

/-- A zone an UNKNOWN spout can be placed in (R71). -/
def Places (s : State) (sp : Spout) (p : Position) (i : ZoneIx) : Prop :=
  i.val < s.zones.limit ∧ (s.zone i).present = true ∧ (s.zone i).zoneType ≠ .route ∧ Within p (s.zone i).box ∧
    ((s.zone i).owner = none ∨ (s.zone i).owner = some sp)

/-- An acceptance is undone on a spout MOVING to its target (R69): the record `q` and the zone table `z` that follow. The
spout is SETTLED again, or LOST with its cause kept where it was on a recovery move; the target is 0, its claim is released
unless it is the current zone, and the overreach flag is the test's value. -/
def Undone (s : State) (sp : Spout) (q : SpoutRec) (z : ZoneTable) : Prop :=
  let r := s.spouts.get sp
  q = { r with
    state := if r.recovery then .lost else .settled, target := 0, recovery := false, overreach := q.overreach } ∧
  (q.overreach = true ↔ Deep s q) ∧ z.limit = s.zones.limit ∧
  ∀ i : ZoneIx, z.entries[i] = { s.zone i with
    owner := if i = r.target ∧ i ≠ r.current ∧ (s.zone i).owner = some sp then none else (s.zone i).owner }

/-! ## The plan -/

/-- The numbers of the plan's records. -/
def numbers (s : State) : List Word16 := s.plan.map (·.number)

/-- The plan with the records of a number changed. -/
def planWith (n : Word16) (f : StepRec → StepRec) (s : State) : List StepRec :=
  s.plan.map fun r => if r.number = n then f r else r

/-- An order queue with a gate order of the spout at this setting posted (R21, R114); as it was where the map has no gate
station for the spout (log 18). -/
def withGateOrder (s : State) (sp : Spout) (x : Setting) (q : List Order) : List Order :=
  match stationOf s .feedGate sp with
  | some st => queueOrder { station := st, kind := .gate sp x, poster := .gate } q
  | none => q

/-- The order queue after a close of a spout's gate is called for (R115): as it was where the gate is CLOSED and no gate order
waits; else with the close posted. -/
def closedOrders (sp : Spout) (s : State) : List Order :=
  if (s.gates.get sp).state = .rest .closed ∧ gateWaiting s sp = none then s.orders else withGateOrder s sp 0 s.orders

/-- A REPLY made ready after the activation test that a plan change calls for. -/
def testedReply (tag : Byte) (code : Code) (data : List Byte) (s : State) : State :=
  pushReady (replyAnswer tag code data) (activationTest s)

/-- STEP_DONE is set and the OPEN bill counts one step more (R134 steps 3 and 4, R165). -/
def doneTold (n : Word16) (s : State) : State :=
  let t := setNotice .stepDone n s
  match openSlot s with
  | none => t
  | some i =>
    match s.bills[i] with
    | none => t
    | some b => t.withBills (s.bills.set i.val (some { b with steps := satInc b.steps }))

/-- A step ends, as DONE or as CANCELLED (R134 steps 1 to 5, R138 steps 1 and 2): its state, the close where it was ACTIVE, at
DONE the notice and the bill's count, and for a TRIM step the pops and the service of latches. -/
def stepEnded (r : StepRec) (x : StepState) (s : State) : State :=
  let t := (s.withPlan (planWith r.number (fun q => { q with state := x }) s)).withOrders
    (if r.state = .active then closedOrders r.spout s else s.orders)
  let t := if x = .done then doneTold r.number t else t
  if r.kind = .trim then trimEnded r.spout r.number t else t

/-! ## Pops and pushes (R146, R148) -/

/-- A COUNT step at or above its effective target (R133). -/
def Filled (r : StepRec) : Prop := r.mode = .count ∧ r.effTarget ≤ r.poured.toNat

/-- The top entry has left the spout's stack and its suspended step is WAITING (R148 steps 1 and 2). -/
def returned (e : StackEntry) (sp : Spout) (s : State) : State :=
  (dropTop sp s).withPlan (planWith e.suspended (fun q => { q with state := .waiting }) s)

/-- A returned step that is complete is DONE at once (R148 step 3). -/
def returnedDone (e : StackEntry) (sp : Spout) (s : State) : State :=
  doneTold e.suspended
    ((returned e sp s).withPlan (planWith e.suspended (fun q => { q with state := .done }) (returned e sp s)))

/-- The pops that the end of TRIM step `n` starts on the spout's stack lead from one state to the other (R148). -/
inductive Pops (sp : Spout) : Word16 → State → State → Prop
  | stop {n : Word16} {s : State} : (∀ e, topEntry s sp = some e → e.trim ≠ n) → Pops sp n s s
  | waits {n : Word16} {s : State} {e : StackEntry} : topEntry s sp = some e → e.trim = n →
      (∀ r, findStep (returned e sp s) e.suspended = some r → ¬ Filled r) → Pops sp n s (returned e sp s)
  | ends {n : Word16} {s : State} {e : StackEntry} {r : StepRec} : topEntry s sp = some e → e.trim = n →
      findStep (returned e sp s) e.suspended = some r → Filled r → r.kind = .plan → Pops sp n s (returnedDone e sp s)
  | on {n : Word16} {s t : State} {e : StackEntry} {r : StepRec} : topEntry s sp = some e → e.trim = n →
      findStep (returned e sp s) e.suspended = some r → Filled r → r.kind = .trim →
      Pops sp e.suspended (returnedDone e sp s) t → Pops sp n s t

/-- The running step `r` is pushed and the TRIM step of a request takes its place (R146). -/
def trimPushed (sp : Spout) (r : StepRec) (req : TrimRequest) (s : State) : State :=
  let n := nextNumber s
  let e : StackEntry := { suspended := r.number, trim := n }
  (((s.withPlan (insertBefore r.number (trimRecord sp req n)
      (planWith r.number (fun q => { q with state := .suspended }) s))).withStepCounter (advance n)).withOrders
        (if r.state = .active then closedOrders sp s else s.orders)).withStack
      (if (s.stack.levels.get sp).length < 3 then
        { s.stack with levels := s.stack.levels.set sp (e :: s.stack.levels.get sp) }
      else { s.stack with shared := .entry sp e })

/-- STACK with a spout's latch clear (R149): the older mark goes to the other latch where that one is set. -/
def latchCleared (sp : Spout) (x : StackUnit) : StackUnit :=
  { x with
    latches := x.latches.set sp none
    older := if x.latches.get (otherSpout sp) = none then none else some (otherSpout sp) }

/-! ## The activation test (R126, R128, R131) -/

/-- A step's after-link is satisfied: absent, or the step it names is finished or no longer in the plan. -/
def LinkSatisfied (s : State) (r : StepRec) : Prop :=
  ∀ n q, r.after = some n → findStep s n = some q → q.state = .done ∨ q.state = .cancelled

/-- Conditions 1, 3, 4 and 5 of R128, which are those of R131 too. -/
def PourAllowed (s : State) (r : StepRec) : Prop :=
  s.runc.state = .run ∧
  ((s.spouts.get r.spout).state = .settled ∧ (s.zone (s.spouts.get r.spout).current).zoneType = .hold ∧
    (s.zone (s.spouts.get r.spout).current).hold = some r.hold) ∧
  blockCause s r.spout = 0 ∧ (s.gates.get r.spout).state ≠ .rest .unsure

/-- The test of spout A and then of B leads from one state to the other, again while it made a step DONE (R128, R134 step
6). -/
inductive Rounds : State → State → Prop
  | last {s : State} : (testSpout .a s).2 = false → (testSpout .b (testSpout .a s).1).2 = false →
      Rounds s (testSpout .b (testSpout .a s).1).1
  | again {s t : State} : ((testSpout .a s).2 = true ∨ (testSpout .b (testSpout .a s).1).2 = true) →
      Rounds (testSpout .b (testSpout .a s).1).1 t → Rounds s t

/-! ## Refusals at an event, HALT entry, a spout record made known -/

/-- Relay entries are answered with one REFUSAL each, in this order, and leave the queue (R47 to R50). -/
def refusedAll (es : List RelayEntry) (reason : Code) (subject : Byte) (s : State) : State :=
  (s.withRelayQueue (s.relayQueue.filter fun e => !(es.any fun x => x.tag == e.tag))).withSport
    { s.sport with
      reserved := es.foldl (fun l e => l.erase e.tag) s.sport.reserved
      ready := s.sport.ready ++ es.map fun e => refusalAnswer e.tag reason subject e.body.kindByte }

/-- The entries HALT entry answers: QUEUED MOVEs and GATEs above 0, oldest first (R48). -/
def haltedEntries (s : State) : List RelayEntry := s.relayQueue.filter fun e => !e.onLine && haltRemoves e

/-- The plan with the spout's ACTIVE step HELD (R130). -/
def heldPlan (sp : Spout) (s : State) : List StepRec :=
  match activeStep s sp with
  | some r => planWith r.number (fun q => { q with state := .held }) s
  | none => s.plan

/-- HALT entry up to the refusals (R179 steps 1 to 4): the run state and the cause; the ALL_STOP, unless one waits; for each
fitted spout, A first, the close of a gate that is not CLOSED with none waiting, and its ACTIVE step HELD where the block begins
here; the REFUSALs HALTED. -/
def haltStopped (cause : HaltCause) (s : State) : State :=
  let stop : Order := { station := 63, kind := .allStop, poster := .runc }
  let t := (s.withRunc { state := .halt, haltCause := some cause, allStop := some .pending }).withOrders
    (if s.orders.any fun o => o.station == 63 then s.orders else s.orders ++ [stop])
  let shut := fun (sp : Spout) (t : State) =>
    if fitted s sp then
      (t.withOrders (closedOrders sp t)).withPlan (if blockCause s sp = 0 then heldPlan sp t else t.plan)
    else t
  refusedAll (haltedEntries s) .halted 0 (shut .b (shut .a t))

/-- HALT entry (R179): what stands above, then the removed MOVEs reported to the TCU in queue order (R44, R48), and HALTED. -/
def haltEntered (cause : HaltCause) (s : State) : State :=
  setNotice .halted (subjectByte cause.byte) ((haltedEntries s).foldl (fun t e => withdrawMove e t) (haltStopped cause s))

/-- A spout's record becomes `q` and the zone table `z`, and the change is made known (R62, R77, R78). Where LOST, SETTLED,
overreach and the current zone stay, nothing follows (log 16). At an entry to LOST the ORDER_STOP goes out first and the QUEUED
MOVEs are answered SPOUT_LOST; the pour block is evaluated; SPOUT_LOST and CLEARANCE are set; a HELD step whose hold was left
goes back to WAITING; the activation test ends the event. -/
def recordKnown (sp : Spout) (q : SpoutRec) (z : ZoneTable) (s : State) : State :=
  let r := s.spouts.get sp
  let t := (s.withSpouts (s.spouts.set sp q)).withZones z
  if (r.state = .lost ↔ q.state = .lost) ∧ (r.state = .settled ↔ q.state = .settled) ∧ r.overreach = q.overreach ∧
      r.current = q.current then t
  else
    let lost := r.state ≠ .lost ∧ q.state = .lost
    let t :=
      if lost then
        refusedAll (s.relayQueue.filter fun e => !e.onLine && isMoveOf sp e) .spoutLost sp.byte (t.withOrders
          (match stationOf s .spoutDrive sp with
          | some st => queueOrder { station := st, kind := .stop sp, poster := .tcu } s.orders
          | none => s.orders))
      else t
    let t := evaluateBlock (decide (blockCause s sp ≠ 0)) sp t
    let t := if lost then setNotice .spoutLost (subjectSpout sp) t else t
    let t := if q.overreach = true ∧ r.overreach = false then setNotice .clearance (subjectSpout sp) t else t
    activationTest (leaveHold sp t)

/-! ## Orders on the line, polls -/

/-- The frame of an order (chapter 1, R6). -/
def orderFrame (k : OrderKind) (station tag : Byte) : Frame :=
  match k with
  | .stop _ => { dest := station, source := 0, kind := 0x38, tag, flags := 0, payload := [] }
  | .gate _ x => { dest := station, source := 0, kind := 0x39, tag, flags := 0, payload := [settingByte x] }
  | .allStop => { dest := station, source := 0, kind := 0x3F, tag, flags := 0, payload := [] }

/-- An attempt of an order goes on the line (R16, R17, R23, R104): the engine sends its frame with the field tag, the counter
moves; a gate's record becomes CHANGING by ORDER to its setting, which is made known, unless it is that already. -/
def orderSent (k : OrderKind) (poster : Poster) (station : Byte) (attempt : Nat) (s : State) : State :=
  let t := s.withLine
    { s.line with
      engine := .sending { work := .order k poster attempt, station, fieldTag := s.line.fieldTag }
        (orderFrame k station s.line.fieldTag)
      fieldTag := s.line.fieldTag + 1 }
  match k with
  | .gate sp x =>
    if (s.gates.get sp).state = .changing x .order then t
    else activationTest (t.withGates (s.gates.set sp { (s.gates.get sp) with state := .changing x .order }))
  | _ => t

/-- The poll set after a poll is made due: it joins unless one for its station waits or is on the line (R26). -/
def polled (s : State) (q : List Poll) (p : Poll) : List Poll :=
  if (∃ x ∈ q, x.station = p.station) ∨ pollOnLine s p.station = true then q else q ++ [p]

/-- The polls an entry to RUN makes due: position polls, then scale polls, spout A's first (R27). -/
def entryPolls (s : State) (spouts : List Spout) : List Poll :=
  (spouts.filterMap fun sp => (stationOf s .spoutDrive sp).map fun st => { station := st, kind := .position sp })
    ++ spouts.filterMap fun sp => (stationOf s .beltScale sp).map fun st => { station := st, kind := .scale sp }

/-- The dust poll a cycle's start asks for: the lowest present head's (R85, R86). -/
def firstDustPoll (s : State) : List Poll :=
  match (List.finRange 16).find? fun i : HeadIx => (s.heads[i]).present with
  | some i => [{ station := (s.heads[i]).station, kind := .dust i }]
  | none => []

/-- The state in which a transaction's outcome is handed on: the engine FREE, and after an answer the field receiver in
HUNT (R3, R19). -/
def lineFreed (answer : Option (List Byte)) (s : State) : State :=
  (if answer.isSome then s.withSport { s.sport with fldRx := .hunt } else s).withLine { s.line with engine := .free }

/-! ## The empty queue (R3, R18, R27, R88, R161) -/

/-- A timer that is due, by the command of its expiry. -/
inductive Due (s : State) : Instr → Prop
  | supervisorFrame (n : Nat) : s.sport.supRx = .frame n → 10 ≤ n → Due s .supervisorFrameTimeLimit
  | fieldFrame (n : Nat) : s.sport.fldRx = .frame n → 10 ≤ n → Due s .fieldFrameTimeLimit
  | reply (t : Transaction) : s.line.engine = .awaiting t 0 → Due s .replyTimeout
  | position : s.timers.position = some 0 → Due s .positionTimerExpiry
  | scale : s.timers.scale = some 0 → Due s .scaleTimerExpiry
  | cycle : s.cycle.timer = some 0 → Due s .cycleTimerExpiry
  | minute : 60000 ≤ s.clock.ticks → Due s .clockMinute

/-- A frame clock one ms on. -/
def oneMsOn : Receiver → Receiver
  | .hunt => .hunt
  | .frame n => .frame (n + 1)

/-- A reply timer one ms down. -/
def oneMsLess : Engine → Engine
  | .awaiting t n => .awaiting t (n - 1)
  | e => e

/-! ## Properties every step keeps -/

/-- The console level is 0 only while the maintenance key input is active (R58). -/
def KeyRule (s : State) : Prop := s.console = 0 → s.pins.keyActive = true

/-- The sum of a bill's nine hold amounts and its unplaced amount, modulo 2^32. -/
def Bill.sum (b : Bill) : Word32 := b.holds.toList.foldl (· + ·) 0 + b.unplaced

/-- The bill table (R160, R162, R163): totals are sums, numbers are 1..65535 and distinct, an OPEN record has closed-at 0,
and at most one record is OPEN. -/
structure BillsGood (s : State) : Prop where
  totals  : ∀ (i : Fin 8) (b : Bill), s.bills[i] = some b → b.total = b.sum
  named   : ∀ (i : Fin 8) (b : Bill), s.bills[i] = some b → b.number ≠ 0
  unclosed : ∀ (i : Fin 8) (b : Bill), s.bills[i] = some b → b.state = .opened → b.closedAt = 0
  distinct : ∀ (i j : Fin 8) (b c : Bill), s.bills[i] = some b → s.bills[j] = some c → b.number = c.number → i = j
  oneOpen : ∀ (i j : Fin 8) (b c : Bill), s.bills[i] = some b → s.bills[j] = some c →
    b.state = .opened → c.state = .opened → i = j

/-- The output places and the relay queue (R11, R12, R37): the reserved places are those of the relay entries, whose tags
are distinct and at most 8; at most 16 places are in use; a frame is sent only from the head of the ready answers. -/
structure PlacesGood (s : State) : Prop where
  reserved : s.sport.reserved.Perm (s.relayQueue.map (·.tag))
  tags     : (s.relayQueue.map (·.tag)).Nodup
  entries  : s.relayQueue.length ≤ Config.relayPlaces
  places   : s.placesUsed ≤ Config.outputPlaces
  sending  : s.sport.sending.isSome = true → s.sport.ready ≠ []

/-- The plan (R120, R122): at most 32 records, distinct numbers, no number and no counter value 0. -/
structure PlanGood (s : State) : Prop where
  size     : s.plan.length ≤ Config.planRecords
  distinct : (s.plan.map (·.number)).Nodup
  named    : ∀ r ∈ s.plan, r.number ≠ 0
  counter  : s.stepCounter ≠ 0

/-- Every setting lies in its range (R182). -/
structure Settings.Good (x : Settings) : Prop where
  replyTimeout   : 2 ≤ x.replyTimeout.toNat ∧ x.replyTimeout.toNat ≤ 250
  positionPeriod : 20 ≤ x.positionPeriod.toNat ∧ x.positionPeriod.toNat ≤ 1000
  scalePeriod    : 100 ≤ x.scalePeriod.toNat ∧ x.scalePeriod.toNat ≤ 2000
  cyclePeriod    : 200 ≤ x.cyclePeriod.toNat ∧ x.cyclePeriod.toNat ≤ 10000
  spoutsFitted   : x.spoutsFitted = 1 ∨ x.spoutsFitted = 2
  maxDelta       : 1 ≤ x.maxDelta.toNat ∧ x.maxDelta.toNat ≤ 5000

/-- A zone entry, loaded or at power-on (R52, R54): each axis has min ≤ max and lies in its range, a hold stands exactly in
a HOLD zone, and the ends of a route exactly in a ROUTE. -/
structure Zone.Good (z : Zone) : Prop where
  rail  : z.box.railMin.toNat ≤ z.box.railMax.toNat ∧ z.box.railMax.toNat ≤ 400000
  slew  : -1800 ≤ z.box.slewMin.toInt ∧ z.box.slewMin.toInt ≤ z.box.slewMax.toInt ∧ z.box.slewMax.toInt ≤ 1800
  reach : z.box.reachMin.toNat ≤ z.box.reachMax.toNat ∧ z.box.reachMax.toNat ≤ 30000
  lower : z.box.lowerMin.toNat ≤ z.box.lowerMax.toNat ∧ z.box.lowerMax.toNat ≤ 25000
  hold  : z.hold.isSome = true ↔ z.zoneType = .hold
  ends  : z.zoneType = .route →
    (1 ≤ z.fromZone.toNat ∧ z.fromZone.toNat ≤ 63) ∧ (1 ≤ z.toZone.toNat ∧ z.toZone.toNat ≤ 63)
  noEnds : z.zoneType ≠ .route → z.fromZone = 0 ∧ z.toZone = 0

/-- A map entry, loaded or at power-on (R34, R35): the unit in its kind's range, the relay class FREE at a drive or a gate,
and an absent entry at its power-on values. -/
structure Station.Good (x : Station) : Prop where
  spoutUnit  : x.kind = .spoutDrive ∨ x.kind = .feedGate ∨ x.kind = .beltScale → x.unit.toNat ≤ 1
  headUnit   : x.kind = .dustHead → x.unit.toNat ≤ 15
  relayClass : x.kind = .spoutDrive ∨ x.kind = .feedGate → x.relayClass = .free
  absent     : x.present = false → x = { present := false, kind := .other, unit := 0, relayClass := .free }

/-- The tables (R34, R52, R53, R60, R182): the null zone is absent, the zone limit is 1..64, the offsets are at most 5000,
the settings lie in their ranges, and so does every zone entry and every map entry. -/
structure TablesGood (s : State) : Prop where
  nullZone  : (s.zone 0).present = false
  limit     : 1 ≤ s.zones.limit ∧ s.zones.limit ≤ 64
  freeboard : ∀ h : Hold, (offsetOf s h).toNat ≤ 5000
  staged    : s.settings.staged.Good
  inUse     : s.settings.inUse.Good
  zones     : ∀ i : ZoneIx, (s.zone i).Good
  stations  : ∀ i : Fin 60, (s.stations[i]).Good

/-- A head (R81, R82, R91 to R97): its thresholds are in order and its fields in their ranges, its counts stay below the
persistence, and a rise in progress aims above the head's state. -/
structure Head.Good (h : Head) : Prop where
  ordered     : h.watch.toNat ≤ h.alarm.toNat ∧ h.alarm.toNat ≤ h.trip.toNat ∧ h.trip.toNat ≤ 4000
  hysteresis  : h.hysteresis.toNat ≤ 500
  persistence : 1 ≤ h.persistence.toNat ∧ h.persistence.toNat ≤ 8
  riseCount   : h.riseCount < h.persistence.toNat
  fallCount   : h.fallCount < h.persistence.toNat
  missCount   : h.missCount ≤ 2
  riseLevel   : h.riseCount ≠ 0 → ∃ d, h.state = .live d ∧ d.rank < h.riseLevel.rank

/-- Every entry of the head table is good. -/
def HeadsGood (s : State) : Prop := ∀ i : HeadIx, (s.heads[i]).Good

/-- The order queue and the poll set hold at most one entry per station (R21, R26). -/
structure QueuesGood (s : State) : Prop where
  orders : (s.orders.map (·.station)).Nodup
  polls  : (s.polls.map (·.station)).Nodup

/-- A command that can clear a notice flag (R185). -/
def clearsNotices : Instr → Bool
  | .powerOn _ _ | .restartInput | .upstreamFrameSent | .nextNotice _ | .clearNotices _ _ | .supervisorFrame _ _ => true
  | _ => false

end Sys2Proof.Machine
end

