-- ==== Sys2Proof/Certificates/Slice0/Obligations.lean ====
section
/-! DEFINITION. The statements for the provers. -/

open Sys2Proof Sys2Proof.Machine

/-! ## The queue of commands -/

/-- A step with a command at the front of the queue is that command's meaning on the state with the queue's rest. -/
def Obligations.StepTakesFrontCommand : Prop :=
  ∀ (c : Instr) (q : List Instr) (s : State), step (s.withPending (c :: q)) = exec c (s.withPending q)

/-- The empty queue (the model's choice, logs 4 and 5). With no expiry due a step is the 1 ms tick: the frame clock of a
receiver in FRAME goes up by 1, the reply timer and each running position, scale and cycle timer go down by 1, the clock's ticks
go up by 1, and nothing else changes. One expiry due is taken: a frame clock at 10 ms, a reply, position, scale or cycle timer at
0, or 60000 ticks. Of several due, one is taken, whichever the free value picks. -/
def Obligations.EmptyQueueTicksOrTakesADueExpiry : Prop :=
  ∀ s : State, s.pending = [] →
    ((∀ c, ¬ Due s c) → step s = .next
      { s with
        sport := { s.sport with supRx := oneMsOn s.sport.supRx, fldRx := oneMsOn s.sport.fldRx }
        line := { s.line with engine := oneMsLess s.line.engine }
        timers := { position := s.timers.position.map (· - 1), scale := s.timers.scale.map (· - 1) }
        cycle := { s.cycle with timer := s.cycle.timer.map (· - 1) }
        clock := { s.clock with ticks := s.clock.ticks + 1 } }) ∧
    (∀ c, Due s c → (∀ e, Due s e → e = c) → step s = exec c s) ∧
    ∀ c d, Due s c → Due s d → c ≠ d → ∃ e, Due s e ∧ step s = exec e (s.withFreeCount (s.freeCount + 1))

/-- Every command answers a next state in every state and leaves the queue as it is; so does every step. -/
def Obligations.EveryCommandCompletes : Prop :=
  (∀ (c : Instr) (s : State), ∃ t, exec c s = .next t ∧ t.pending = s.pending ∧ t.freeCount = s.freeCount) ∧
  ∀ s : State, ∃ t, step s = .next t

/-! ## Frames of the supervisor line -/

/-- The check word: the register starts at FFFF hex; each byte enters it most significant bit first, one shift left for each bit,
with 1021 hex exclusive-ORed in where the bit shifted out differs from the incoming bit. A frame followed by its own check word
leaves the register at 0. -/
def Obligations.CheckWordClosesTheCrc : Prop :=
  let shift := fun (w : Word16) (bit : Bool) => if w.getLsbD 15 = bit then w <<< 1 else (w <<< 1) ^^^ 0x1021
  crc16 [] = 0xFFFF ∧
  (∀ (l : List Byte) (b : Byte), crc16 (l ++ [b])
    = ([7, 6, 5, 4, 3, 2, 1, 0].map fun k => b.getLsbD k).foldl shift (crc16 l)) ∧
  (∀ f : Frame, f.check
    = crc16 ([f.dest, f.source, f.kind, f.tag, f.flags, byteOfNat f.payload.length] ++ f.payload)) ∧
  ∀ f : Frame, crc16 (f.body ++ bytes16 f.check) = 0

/-- The frame of every well-formed request is read back as that request, with every operand. -/
def Obligations.RequestFramesAreRead : Prop :=
  ∀ (c : Instr) (f : Frame), c.wf = true → frameOf c = some f → routeFrame f = .command c

/-- A supervisor frame that carries a well-formed request does what the request's own command does. That a row which names a
request is the arrival of its frame is the model's reading of the table (log 2), and the statement says that the two agree. -/
def Obligations.FrameActsAsItsRequest : Prop :=
  ∀ (c : Instr) (f : Frame) (s : State), c.wf = true → frameOf c = some f →
    exec (.supervisorFrame f f.check) s = exec c s

/-- The five checks of R8 in order: each first failure is answered by its REFUSAL and has no other effect; a frame that
passes is a request, or is answered by R191. The flags byte is not examined. -/
def Obligations.FrameChecksOfR8 : Prop :=
  (∀ (f : Frame) (s : State), f.wf = true → Taken s →
    (f.source ≠ 62 → exec (.supervisorFrame f f.check) s = .next (refusalTo f.tag .badFrame 1 f.kind s)) ∧
    (f.source = 62 → supervisorKind f.kind = false →
      exec (.supervisorFrame f f.check) s = .next (refusalTo f.tag .badFrame 2 f.kind s)) ∧
    (f.source = 62 → supervisorKind f.kind = true → destinationSuits f = false →
      exec (.supervisorFrame f f.check) s = .next (refusalTo f.tag .badDest f.dest f.kind s)) ∧
    (f.source = 62 → supervisorKind f.kind = true → destinationSuits f = true → payloadFits f = false →
      exec (.supervisorFrame f f.check) s = .next (refusalTo f.tag .badFrame 3 f.kind s)) ∧
    (f.source = 62 → supervisorKind f.kind = true → destinationSuits f = true → payloadFits f = true →
      ∀ reason subject, routeFrame f ≠ .refuse reason subject)) ∧
  ∀ (f : Frame) (x : Byte), routeFrame { f with flags := x } = routeFrame f

/-- The fit checks of R191: a management frame that fails one is answered BAD_VALUE with no data and has no effect; one that
passes is the frame of a request. -/
def Obligations.RequestFitChecksOfR191 : Prop :=
  ∀ (tag code : Byte) (fields : List Byte) (s : State), fields.length ≤ 47 → Taken s →
    (requestFits code fields = false →
      exec (.supervisorFrame (supFrame 0 0x10 tag (code :: fields)) (supFrame 0 0x10 tag (code :: fields)).check) s
        = .next (replyTo tag .badValue [] s)) ∧
    (requestFits code fields = true → ∃ c, frameOf c = some (supFrame 0 0x10 tag (code :: fields)))

/-- LINK_FAULT with its four causes, and the frames that are dropped without it: while a RESTART is pending, and while the
restart input is asserted. The causes 2 and 3 while a RESTART is pending are log 13's. -/
def Obligations.LinkFaultCauses : Prop :=
  ∀ (f : Frame) (w : Word16) (s : State), f.wf = true →
    (s.pins.restartAsserted = false → s.sport.restartPending = false → w ≠ f.check →
      exec (.supervisorFrame f w) s = .next (setNotice .linkFault 1 (heard s))) ∧
    (s.pins.restartAsserted = false →
      exec .supervisorFrameLengthDiscard s = .next (setNotice .linkFault 2 (heard s))) ∧
    (∀ n, s.pins.restartAsserted = false → s.sport.supRx = .frame n →
      exec .supervisorFrameTimeLimit s = .next (setNotice .linkFault 3 (heard s))) ∧
    (s.pins.restartAsserted = false → s.sport.restartPending = false → 16 ≤ s.placesUsed → w = f.check →
      exec (.supervisorFrame f w) s = .next (setNotice .linkFault 4 (heard s))) ∧
    (s.pins.restartAsserted = false → s.sport.restartPending = true →
      exec (.supervisorFrame f w) s = .next (heard s)) ∧
    (s.pins.restartAsserted = true → exec (.supervisorFrame f w) s = .next s)

/-- The frame that begins to go out is the first ready answer's, from station 0 to 62, with the header flags N, T, H and C
as they stand. -/
def Obligations.UpstreamFrameStartsWithItsFlags : Prop :=
  ∀ (s : State) (a : Answer) (rest : List Answer), s.pins.restartAsserted = false → s.sport.sending = none →
    s.sport.ready = a :: rest →
    ∃ f : Frame, exec .upstreamFrameStart s = .next (s.withSport { s.sport with sending := some f }) ∧
      f.dest = 62 ∧ f.source = 0 ∧ f.tag = a.tag ∧ f.payload = a.payload ∧
      (a.kind = .reply → f.kind = 0x90) ∧ (a.kind = .relayed → f.kind = 0xA2) ∧ (a.kind = .refusal → f.kind = 0xAF) ∧
      (f.flags.getLsbD 0 = true ↔ ∃ i : Fin 13, s.notices.flags[i] = true ∧ s.notices.mask[i] = false) ∧
      f.flags.getLsbD 1 = a.trimmed ∧ (f.flags.getLsbD 2 = true ↔ s.runc.state = .halt) ∧
      (f.flags.getLsbD 3 = true ↔ s.runc.state = .config) ∧ ∀ i, 4 ≤ i → f.flags.getLsbD i = false

/-- The last byte of a frame frees its place; after the REPLY to RESTART the restart takes place. RESTART is taken with its
REPLY first in the send order, behind a frame that is being sent. -/
def Obligations.UpstreamSentAndRestartReply : Prop :=
  (∀ (s : State) (f : Frame) (a : Answer) (rest : List Answer), s.sport.sending = some f → s.sport.ready = a :: rest →
    (a.isRestart = false →
      exec .upstreamFrameSent s = .next (s.withSport { s.sport with ready := rest, sending := none })) ∧
    (a.isRestart = true → exec .upstreamFrameSent s = .next (restartAll s))) ∧
  ∀ (tag : Byte) (s : State), Taken s →
    (s.sport.sending = none →
      exec (.restart tag) s = .next ((heard s).withSport
        { (heard s).sport with
          ready := { replyAnswer tag .done [] with isRestart := true } :: s.sport.ready, restartPending := true })) ∧
    ∀ (f : Frame) (a : Answer) (rest : List Answer), s.sport.sending = some f → s.sport.ready = a :: rest →
      exec (.restart tag) s = .next ((heard s).withSport
        { (heard s).sport with
          ready := a :: { replyAnswer tag .done [] with isRestart := true } :: rest, restartPending := true })

/-! ## Restart, power-on, key -/

/-- The restart input: what becomes of every block's state and what is kept. That an input asserted already changes nothing is
the model's choice (log 8), and no sentence of the spec. -/
def Obligations.RestartInputRestartsEveryBlock : Prop :=
  ∀ s : State,
    (s.pins.restartAsserted = true → exec .restartInput s = .next s) ∧
    exec .restartInputRelease s = .next (s.withPins { s.pins with restartAsserted := false }) ∧
    (s.pins.restartAsserted = false → ∃ t, exec .restartInput s = .next t ∧
      t.pins = { s.pins with restartAsserted := true } ∧
      t.sport = { supRx := .hunt, fldRx := .hunt, reserved := [], ready := [], sending := none, restartPending := false } ∧
      t.line = { engine := .free, fieldTag := 0, lastServed := .relays } ∧ t.orders = [] ∧ t.polls = [] ∧
      t.timers = { position := none, scale := none } ∧ t.relayQueue = [] ∧ t.console = 2 ∧
      t.spouts = { a := SpoutRec.initial, b := SpoutRec.initial } ∧
      t.cycle = { state := .idle, pendingHead := none, overrun := false, timer := none } ∧
      (∀ h : Hold, t.holdDust[h] = .quiet) ∧
      (∀ sp, t.gates.get sp = { state := .rest .unsure, confirmed := 0 } ∧ t.account.get sp = none ∧
        t.stack.levels.get sp = [] ∧ t.stack.latches.get sp = none ∧
        t.baselines.get sp = { s.baselines.get sp with valid := false }) ∧
      t.stack.shared = .empty ∧ t.stack.older = none ∧
      t.runc = { state := .config, haltCause := none, allStop := none } ∧
      (∀ n : Fin 13, t.notices.flags[n] = false) ∧ t.notices.subjects = s.notices.subjects ∧
      t.notices.mask = s.notices.mask ∧ t.settings = s.settings ∧ t.stations = s.stations ∧
      t.zones.limit = s.zones.limit ∧ (∀ i : ZoneIx, t.zone i = { s.zone i with owner := none }) ∧
      t.freeboard = s.freeboard ∧
      (∀ i : HeadIx, t.heads[i] = { s.heads[i] with
        state := .live .quiet, riseCount := 0, riseLevel := .watch, fallCount := 0, missCount := 0 }) ∧
      t.stepCounter = s.stepCounter ∧ t.unbilled = s.unbilled ∧ t.clock = s.clock)

/-- The plan and the bills through a restart: pouring and suspended steps are WAITING again, or DONE where complete, with
top-off cleared; the OPEN bill counts one gap and those completed steps; nothing else of a record changes. -/
def Obligations.RestartOfPlanAndBills : Prop :=
  ∀ s t : State, s.pins.restartAsserted = false → exec .restartInput s = .next t →
    List.Forall₂ (fun r q : StepRec =>
      (∃ x, q = { r with inTopOff := false, state := x }) ∧
      ((r.state = .active ∨ r.state = .held ∨ r.state = .suspended) →
        (r.mode = .count ∧ r.effTarget ≤ r.poured.toNat → q.state = .done) ∧
        (¬ (r.mode = .count ∧ r.effTarget ≤ r.poured.toNat) → q.state = .waiting)) ∧
      (¬ (r.state = .active ∨ r.state = .held ∨ r.state = .suspended) → q.state = r.state)) s.plan t.plan ∧
    ∀ i : Fin 8, (s.bills[i] = none → t.bills[i] = none) ∧
      ∀ b, s.bills[i] = some b →
        (b.state ≠ .opened → t.bills[i] = some b) ∧
        (b.state = .opened → ∃ g n : Word16, t.bills[i] = some { b with gaps := g, steps := n } ∧
          g.toNat = min 65535 (b.gaps.toNat + 1) ∧
          n.toNat = min 65535 (b.steps.toNat + s.plan.countP fun r =>
            (r.state == .active || r.state == .held || r.state == .suspended) && r.mode == .count
              && decide (r.effTarget ≤ r.poured.toNat)))

/-- Power-on: the straps are read and every block has its power-on values; the queue, the free choices' counter and the
levels of the key and RESTART_N are as they were (log 7). The values of State.reset, block by block; those of the pins are the
model's choice of log 6, and that of a spout's invalid last position is log 9's. -/
def Obligations.PowerOnValues : Prop :=
  (∀ (clk baud : Bool) (s : State), exec (.powerOn clk baud) s = .next
    { State.reset with
      pending := s.pending, freeCount := s.freeCount,
      pins := { s.pins with strapClk := clk, strapBaud := baud } }) ∧
  (∀ p : Pins, supervisorRate p = (if p.strapBaud then 115200 else 57600)
    ∧ clockMegahertz p = (if p.strapClk then 16 else 8)) ∧
  State.reset.pending = [] ∧
  State.reset.pins = { strapClk := false, strapBaud := false, keyActive := false, restartAsserted := false } ∧
  State.reset.sport = { supRx := .hunt, fldRx := .hunt, reserved := [], ready := [], sending := none,
                        restartPending := false } ∧
  State.reset.line = { engine := .free, fieldTag := 0, lastServed := .relays } ∧
  State.reset.orders = [] ∧ State.reset.polls = [] ∧ State.reset.timers = { position := none, scale := none } ∧
  (∀ x : Settings, (x = State.reset.settings.staged ∨ x = State.reset.settings.inUse) →
    x = { replyTimeout := 20, positionPeriod := 100, scalePeriod := 500, cyclePeriod := 1000, spoutsFitted := 1,
          alarmCap := 15, maxDelta := 500 }) ∧
  (∀ i : Fin 60, State.reset.stations[i] = { present := false, kind := .other, unit := 0, relayClass := .free }) ∧
  State.reset.relayQueue = [] ∧ State.reset.zones.limit = 1 ∧
  (∀ i : ZoneIx, State.reset.zone i =
    { present := false, zoneType := .transit, level := 0, hold := none,
      box := { railMin := 0, railMax := 0, slewMin := 0, slewMax := 0, reachMin := 0, reachMax := 0, lowerMin := 0,
               lowerMax := 0 },
      fromZone := 0, toZone := 0, owner := none }) ∧
  (∀ h : Hold, State.reset.freeboard[h] = 0 ∧ State.reset.holdDust[h] = .quiet) ∧ State.reset.console = 2 ∧
  (∀ sp, State.reset.spouts.get sp =
      { state := .unknown, current := 0, target := 0, recovery := false,
        position := { rail := 0, slew := 0, reach := 0, lower := 0 }, posValid := false, driveFlags := 0, missed := 0,
        overreach := false, lostCause := none } ∧
    State.reset.gates.get sp = { state := .rest .unsure, confirmed := 0 } ∧ State.reset.account.get sp = none ∧
    State.reset.stack.levels.get sp = [] ∧ State.reset.stack.latches.get sp = none ∧
    State.reset.baselines.get sp = { value := 0, valid := false }) ∧
  State.reset.stack.shared = .empty ∧ State.reset.stack.older = none ∧
  (∀ i : HeadIx, State.reset.heads[i] =
    { present := false, station := 0, hold := none, watch := 0, alarm := 0, trip := 0, hysteresis := 0, persistence := 1,
      state := .live .quiet, sample := 0, sampleValid := false, riseCount := 0, riseLevel := .watch, fallCount := 0,
      missCount := 0, sampled := false }) ∧
  State.reset.cycle = { state := .idle, pendingHead := none, overrun := false, timer := none } ∧
  State.reset.plan = [] ∧ State.reset.stepCounter = 1 ∧ (∀ i : Fin 8, State.reset.bills[i] = none) ∧
  State.reset.unbilled = 0 ∧ State.reset.clock = { minutes := 0, ticks := 0 } ∧
  (∀ n : Fin 13, State.reset.notices.flags[n] = false ∧ State.reset.notices.mask[n] = false ∧
    State.reset.notices.subjects[n] = 0) ∧
  State.reset.runc = { state := .config, haltCause := none, allStop := none }

/-- The console level and the maintenance key. That MAINTENANCE_KEY_INACTIVE moves level 0 to 1 in every state, also where the key
was inactive, and that a repeated key level changes nothing else, is the model's choice (log 8). -/
def Obligations.ConsoleLevelAndKey : Prop :=
  (∀ (tag level : Byte) (s : State), Taken s →
    (3 < level.toNat → exec (.setConsoleLevel tag level) s = .next (replyTo tag .badValue [] s)) ∧
    (level = 0 → s.pins.keyActive = false →
      exec (.setConsoleLevel tag level) s = .next (replyTo tag .keyRequired [] s)) ∧
    (∀ x : Level, x.val = level.toNat → (level ≠ 0 ∨ s.pins.keyActive = true) →
      exec (.setConsoleLevel tag level) s = .next (replyTo tag .done [] (s.withConsole x)))) ∧
  (∀ s : State, exec .maintenanceKeyInactive s = .next
    ((s.withPins { s.pins with keyActive := false }).withConsole (if s.console = 0 then 1 else s.console))) ∧
  ∀ s : State, exec .maintenanceKeyActive s = .next (s.withPins { s.pins with keyActive := true })

/-! ## Run states -/

/-- RUN from CONFIG with a complete map and agreeing staged settings: the part enters RUN, the staged settings are in use, the
baselines are invalid, a close order goes to every fitted gate, spout A's first, the poll timers start with their first polls
due, a sample cycle starts, the activation test runs, and the REPLY is DONE; nothing else changes. While the fitted spouts are
UNKNOWN the test makes no step ACTIVE and posts no order. The arbiter runs once, at the event's end, after the REPLY is ready
(logs 12 and 26). -/
def Obligations.RunFromConfig : Prop :=
  ∀ (tag : Byte) (s : State), Taken s → s.runc.state = .config → MapComplete s → SettingsAgree s.settings.staged →
    let x := s.settings.staged
    let spouts : List Spout := if x.spoutsFitted = 2 then [.a, .b] else [.a]
    let closeA := withGateOrder s .a 0 s.orders
    let first := (List.finRange 16).find? fun i : HeadIx => (s.heads[i]).present
    let entered : State :=
      { heard s with
        runc := { s.runc with state := .run }
        settings := { staged := x, inUse := x }
        baselines := { a := { s.baselines.a with valid := false }, b := { s.baselines.b with valid := false } }
        orders := if x.spoutsFitted = 2 then withGateOrder s .b 0 closeA else closeA
        timers := { position := some x.positionPeriod.toNat, scale := some x.scalePeriod.toNat }
        polls := (entryPolls s spouts ++ firstDustPoll s).foldl (polled s) s.polls
        heads := Vector.ofFn fun i => { s.heads[i] with sampled := false }
        cycle := { state := if first.isSome then .cycling else .idle, pendingHead := first, overrun := false,
                   timer := some x.cyclePeriod.toNat } }
    exec (.run tag) s = .next (arbitrate (testedReply tag .done [] entered)) ∧
    ((∀ sp ∈ spouts, (s.spouts.get sp).state = .unknown) → (∀ r ∈ s.plan, r.state ≠ .active) →
      (activationTest entered).orders = entered.orders ∧ ∀ r ∈ (activationTest entered).plan, r.state ≠ .active) ∧
    let u := testedReply tag .done [] entered
    u.runc = entered.runc ∧ u.settings = entered.settings ∧ u.baselines = entered.baselines ∧ u.timers = entered.timers ∧
      u.polls = entered.polls ∧ u.heads = entered.heads ∧ u.cycle = entered.cycle ∧
      u.sport = { (heard s).sport with ready := s.sport.ready ++ [replyAnswer tag .done []] } ∧
      u.spouts = s.spouts ∧ u.zones = s.zones ∧ u.stations = s.stations ∧ u.relayQueue = s.relayQueue ∧
      u.gates = s.gates ∧ u.console = s.console ∧ u.freeboard = s.freeboard ∧ u.holdDust = s.holdDust ∧
      u.clock = s.clock ∧ u.unbilled = s.unbilled ∧ u.pins = s.pins ∧ u.line = s.line

/-- The answers of RUN, HALT and RESUME that change nothing: where the run state is reached already, where it does not
allow the request, and where RUN's checks or RESUME's gate check fail; a map that is not complete is answered with the first
item that fails, in the order of R36. The arbiter runs after the REPLY (logs 12 and 26) and finds what it found before. -/
def Obligations.RunHaltResumeWithoutChange : Prop :=
  ∀ (tag : Byte) (s : State), Taken s →
    (s.runc.state = .run → exec (.run tag) s = .next (arbitrate (replyTo tag .done [] s)) ∧
      exec (.resume tag) s = .next (arbitrate (replyTo tag .done [] s))) ∧
    (s.runc.state = .halt → exec (.run tag) s = .next (arbitrate (replyTo tag .halted [] s)) ∧
      exec (.halt tag) s = .next (arbitrate (replyTo tag .done [] s))) ∧
    (s.runc.state = .config → exec (.halt tag) s = .next (arbitrate (replyTo tag .notRunning [] s)) ∧
      exec (.resume tag) s = .next (arbitrate (replyTo tag .notRunning [] s))) ∧
    (s.runc.state = .config → ¬ MapComplete s → ∃ x, (mapItems s).find? (fun y => y.1) = some x ∧
      exec (.run tag) s = .next (arbitrate (replyTo tag .mapIncomplete [x.2.1, x.2.2] s))) ∧
    (s.runc.state = .config → MapComplete s → ¬ SettingsAgree s.settings.staged →
      exec (.run tag) s = .next (arbitrate (replyTo tag .badValue
        [if s.settings.staged.replyTimeout.toNat < s.settings.staged.positionPeriod.toNat then 2 else 1] s))) ∧
    (s.runc.state = .halt → (s.gates.get .a).state ≠ .rest .closed →
      exec (.resume tag) s = .next (arbitrate (replyTo tag .gatesNotClosed [0] s))) ∧
    (s.runc.state = .halt → (s.gates.get .a).state = .rest .closed → fitted s .b = true →
      (s.gates.get .b).state ≠ .rest .closed →
      exec (.resume tag) s = .next (arbitrate (replyTo tag .gatesNotClosed [1] s)))

/-- HALT in RUN: HALT entry with cause 1, then the REPLY, then one arbiter run at the event's end (logs 12 and 26). The run state
is HALT, the ALL_STOP waits ahead of the close orders, a close waits for every fitted gate that is not CLOSED, the ACTIVE steps
are HELD where the block begins here, every QUEUED MOVE and GATE above 0 is answered HALTED in queue order, the removed MOVEs are
reported to the TCU, and HALTED is set. -/
def Obligations.HaltFromRun : Prop :=
  ∀ (tag : Byte) (s : State), Taken s → s.runc.state = .run →
    let stopped := haltStopped .request (heard s)
    let u := pushReady (replyAnswer tag .done []) (haltEntered .request (heard s))
    exec (.halt tag) s = .next (arbitrate u) ∧
    ((∀ o ∈ s.orders, o.station ≠ 63) → ∃ before closes : List Order,
      stopped.orders = before ++ { station := 63, kind := .allStop, poster := .runc } :: closes ∧
      before.map (·.station) = s.orders.map (·.station)) ∧
    (∀ sp st, fitted s sp = true → (s.gates.get sp).state ≠ .rest .closed → stationOf s .feedGate sp = some st →
      ∃ o ∈ stopped.orders, o.station = st ∧ o.kind = .gate sp 0) ∧
    (∀ sp, fitted s sp = true → blockCause s sp = 0 → ∀ r, activeStep s sp = some r →
      (findStep stopped r.number).map (·.state) = some .held) ∧
    (∀ (e : RelayEntry) (t : State),
      ((∀ m cls, e.body ≠ .move m cls true) → withdrawMove e t = t) ∧
      ∀ m cls, e.body = .move m cls true →
        (¬ ((t.spouts.get m.spout).state = .moving ∧ (t.spouts.get m.spout).target.val = m.target.toNat) →
          withdrawMove e t = t) ∧
        ((t.spouts.get m.spout).state = .moving → (t.spouts.get m.spout).target.val = m.target.toNat →
          ∃ q z, Undone t m.spout q z ∧ withdrawMove e t = recordKnown m.spout q z t)) ∧
    u.runc = { state := .halt, haltCause := some .request, allStop := some .pending } ∧
      u.notices.flags[(0 : Fin 13)] = true ∧ u.notices.subjects[(0 : Fin 13)] = 1 ∧
      (∀ e ∈ u.relayQueue, e.onLine = false → haltRemoves e = false) ∧
      u.sport.ready = s.sport.ready
        ++ (s.relayQueue.filter fun e => !e.onLine && haltRemoves e).map
            (fun e => refusalAnswer e.tag .halted 0 e.body.kindByte)
        ++ [replyAnswer tag .done []] ∧
      u.timers = s.timers ∧ u.cycle = s.cycle ∧ u.baselines = s.baselines ∧ u.settings = s.settings ∧
      u.stations = s.stations ∧ u.heads = s.heads ∧ u.holdDust = s.holdDust ∧ u.gates = s.gates ∧
      u.console = s.console ∧ u.freeboard = s.freeboard ∧ u.clock = s.clock ∧ u.unbilled = s.unbilled ∧
      u.pins = s.pins ∧ u.line = s.line

/-- RESUME in HALT with every fitted gate CLOSED: RUN again, the halt cause none, the all-stop status kept, the settings
taken, the baselines invalid, the poll timers started. The REPLY is ready before the one arbiter run at the event's end (logs 12
and 26). -/
def Obligations.ResumeFromHalt : Prop :=
  ∀ (tag : Byte) (s : State), Taken s → s.runc.state = .halt →
    (∀ sp, fitted s sp = true → (s.gates.get sp).state = .rest .closed) →
    ∃ u : State, exec (.resume tag) s = .next (arbitrate u) ∧
      u.runc = { s.runc with state := .run, haltCause := none } ∧
      u.settings = { staged := s.settings.staged, inUse := s.settings.staged } ∧
      (∀ sp, u.baselines.get sp = { s.baselines.get sp with valid := false }) ∧
      u.timers = { position := some s.settings.staged.positionPeriod.toNat,
                   scale := some s.settings.staged.scalePeriod.toNat } ∧
      u.sport = { (heard s).sport with ready := s.sport.ready ++ [replyAnswer tag .done []] } ∧
      u.cycle = s.cycle ∧ u.heads = s.heads ∧ u.spouts = s.spouts ∧ u.zones = s.zones ∧ u.stations = s.stations ∧
      u.relayQueue = s.relayQueue ∧ u.gates = s.gates ∧ u.holdDust = s.holdDust ∧ u.console = s.console ∧
      u.freeboard = s.freeboard ∧ u.clock = s.clock ∧ u.unbilled = s.unbilled ∧ u.pins = s.pins ∧ u.line = s.line

/-! ## Configuration -/

/-- LOAD_STATION in CONFIG: BAD_VALUE where a field is out of range; else only the entry at the address changes, and it holds
the fields given, or its power-on values where present is no. -/
def Obligations.LoadStation : Prop :=
  ∀ (tag address kind unit cls : Byte) (present : Bool) (s : State), Taken s → s.runc.state = .config →
    let good := (1 ≤ address.toNat ∧ address.toNat ≤ 60) ∧ kind.toNat ≤ 4 ∧ (kind.toNat ≤ 2 → unit.toNat ≤ 1) ∧
      (kind.toNat = 3 → unit.toNat ≤ 15) ∧ cls.toNat ≤ 1
    (¬ good → exec (.loadStation tag address present kind unit cls) s = .next (replyTo tag .badValue [] s)) ∧
    (good → ∃ v : Vector Station 60,
      exec (.loadStation tag address present kind unit cls) s = .next (replyTo tag .done [] (s.withStations v)) ∧
      ∀ i : Fin 60, (i.val + 1 ≠ address.toNat → v[i] = s.stations[i]) ∧
        (i.val + 1 = address.toNat → present = false →
          v[i] = { present := false, kind := .other, unit := 0, relayClass := .free }) ∧
        (i.val + 1 = address.toNat → present = true →
          (v[i]).present = true ∧ (v[i]).kind.byte = kind ∧ (v[i]).unit = unit ∧
            (v[i]).relayClass.byte = if kind.toNat ≤ 1 then 0 else cls))

/-- LOAD_ZONE: NOT_CONFIG in RUN and HALT; in CONFIG BAD_VALUE where a field its type uses is out of range; else only the entry at the index changes, it
holds the fields given with those its type does not use at 0, and its claim owner is as it was. -/
def Obligations.LoadZone : Prop :=
  (∀ (tag : Byte) (z : ZoneFields) (s : State), Taken s → s.runc.state ≠ .config →
    exec (.loadZone tag z) s = .next (replyTo tag .notConfig [] s)) ∧
  ∀ (tag : Byte) (z : ZoneFields) (s : State), Taken s → s.runc.state = .config →
    let boxed := z.box.railMin.toNat ≤ z.box.railMax.toNat ∧ z.box.railMax.toNat ≤ 400000 ∧
      -1800 ≤ z.box.slewMin.toInt ∧ z.box.slewMin.toInt ≤ z.box.slewMax.toInt ∧ z.box.slewMax.toInt ≤ 1800 ∧
      z.box.reachMin.toNat ≤ z.box.reachMax.toNat ∧ z.box.reachMax.toNat ≤ 30000 ∧
      z.box.lowerMin.toNat ≤ z.box.lowerMax.toNat ∧ z.box.lowerMax.toNat ≤ 25000
    let good := (1 ≤ z.index.toNat ∧ z.index.toNat ≤ 63) ∧ z.zoneType.toNat ≤ 3 ∧ z.level.toNat ≤ 3 ∧
      (z.zoneType = 0 → 1 ≤ z.hold.toNat ∧ z.hold.toNat ≤ 9) ∧ (z.zoneType ≠ 3 → boxed) ∧
      (z.zoneType = 3 → (1 ≤ z.fromZone.toNat ∧ z.fromZone.toNat ≤ 63) ∧ (1 ≤ z.toZone.toNat ∧ z.toZone.toNat ≤ 63))
    (¬ good → exec (.loadZone tag z) s = .next (replyTo tag .badValue [] s)) ∧
    (good → ∃ v : Vector Zone 64,
      exec (.loadZone tag z) s = .next (replyTo tag .done [] (s.withZones { s.zones with entries := v })) ∧
      ∀ i : ZoneIx, (i.val ≠ z.index.toNat → v[i] = s.zone i) ∧
        (i.val = z.index.toNat → (v[i]).present = z.present ∧ (v[i]).zoneType.byte = z.zoneType ∧
          (v[i]).level.val = z.level.toNat ∧ (v[i]).owner = (s.zone i).owner ∧
          holdCode (v[i]).hold = (if z.zoneType = 0 then z.hold else 0) ∧
          (v[i]).box = (if z.zoneType = 3 then Box.zero else z.box) ∧
          (v[i]).fromZone = (if z.zoneType = 3 then z.fromZone else 0) ∧
          (v[i]).toZone = (if z.zoneType = 3 then z.toZone else 0)))

/-- LOAD_HEAD: NOT_CONFIG in RUN and HALT; in CONFIG BAD_VALUE for an index above 15 or a present head with a field out of range; else only the entry
at the index changes: its configuration is the fields given, or at power-on values where present is no, and its dynamic
fields are at power-on values. -/
def Obligations.LoadHead : Prop :=
  (∀ (tag : Byte) (h : HeadFields) (s : State), Taken s → s.runc.state ≠ .config →
    exec (.loadHead tag h) s = .next (replyTo tag .notConfig [] s)) ∧
  ∀ (tag : Byte) (h : HeadFields) (s : State), Taken s → s.runc.state = .config →
    let good := h.index.toNat ≤ 15 ∧ (h.present = true → (1 ≤ h.station.toNat ∧ h.station.toNat ≤ 60) ∧ h.hold.toNat ≤ 9 ∧
      h.watch.toNat ≤ h.alarm.toNat ∧ h.alarm.toNat ≤ h.trip.toNat ∧ h.trip.toNat ≤ 4000 ∧ h.hysteresis.toNat ≤ 500 ∧
      (1 ≤ h.persistence.toNat ∧ h.persistence.toNat ≤ 8))
    (¬ good → exec (.loadHead tag h) s = .next (replyTo tag .badValue [] s)) ∧
    (good → ∃ v : Vector Head 16, exec (.loadHead tag h) s = .next (replyTo tag .done [] (s.withHeads v)) ∧
      ∀ i : HeadIx, (i.val ≠ h.index.toNat → v[i] = s.heads[i]) ∧
        (i.val = h.index.toNat → h.present = false → v[i] = Head.initial) ∧
        (i.val = h.index.toNat → h.present = true → ∃ hold : Option Hold, holdCode hold = h.hold ∧
          v[i] = { present := true, station := h.station, hold, watch := h.watch, alarm := h.alarm, trip := h.trip,
                   hysteresis := h.hysteresis, persistence := h.persistence, state := .live .quiet, sample := 0,
                   sampleValid := false, riseCount := 0, riseLevel := .watch, fallCount := 0, missCount := 0,
                   sampled := false }))

/-- SET_ZONE_LIMIT, SET_TIMING and SET_LIMITS in CONFIG; and all six configuration requests are refused NOT_CONFIG in RUN and
HALT, with no change. -/
def Obligations.SettingsAndNotConfig : Prop :=
  (∀ (tag limit : Byte) (s : State), Taken s → s.runc.state = .config →
    exec (.setZoneLimit tag limit) s = .next
      (if 1 ≤ limit.toNat ∧ limit.toNat ≤ 64 then replyTo tag .done [] (s.withZones { s.zones with limit := limit.toNat })
      else replyTo tag .badValue [] s)) ∧
  (∀ (tag : Byte) (reply position scale cycle : Word16) (s : State), Taken s → s.runc.state = .config →
    exec (.setTiming tag reply position scale cycle) s = .next
      (if (2 ≤ reply.toNat ∧ reply.toNat ≤ 250) ∧ (20 ≤ position.toNat ∧ position.toNat ≤ 1000) ∧
          (100 ≤ scale.toNat ∧ scale.toNat ≤ 2000) ∧ (200 ≤ cycle.toNat ∧ cycle.toNat ≤ 10000) then
        replyTo tag .done [] (s.withSettings { s.settings with staged := { s.settings.staged with
          replyTimeout := reply, positionPeriod := position, scalePeriod := scale, cyclePeriod := cycle } })
      else replyTo tag .badValue [] s)) ∧
  (∀ (tag spouts cap : Byte) (maxDelta : Word16) (s : State), Taken s → s.runc.state = .config →
    ((spouts = 1 ∨ spouts = 2) → 1 ≤ maxDelta.toNat → maxDelta.toNat ≤ 5000 → ∀ x : Setting, x.val = cap.toNat →
      exec (.setLimits tag spouts cap maxDelta) s = .next
        (replyTo tag .done [] (s.withSettings { s.settings with staged := { s.settings.staged with
          spoutsFitted := spouts.toNat, alarmCap := x, maxDelta := maxDelta } }))) ∧
    (¬ ((spouts = 1 ∨ spouts = 2) ∧ (1 ≤ maxDelta.toNat ∧ maxDelta.toNat ≤ 5000) ∧ cap.toNat ≤ 31) →
      exec (.setLimits tag spouts cap maxDelta) s = .next (replyTo tag .badValue [] s))) ∧
  ∀ (tag x y u v : Byte) (p : Bool) (z : ZoneFields) (h : HeadFields) (a b c d : Word16) (s : State),
    Taken s → s.runc.state ≠ .config →
    exec (.loadStation tag x p y u v) s = .next (replyTo tag .notConfig [] s) ∧
    exec (.loadZone tag z) s = .next (replyTo tag .notConfig [] s) ∧
    exec (.setZoneLimit tag x) s = .next (replyTo tag .notConfig [] s) ∧
    exec (.loadHead tag h) s = .next (replyTo tag .notConfig [] s) ∧
    exec (.setTiming tag a b c d) s = .next (replyTo tag .notConfig [] s) ∧
    exec (.setLimits tag x y a) s = .next (replyTo tag .notConfig [] s)

/-! ## Reading -/

/-- READ_STATION, READ_ZONE and QUERY_ZONE answer with the entry as it stands and change nothing; an address, index or level
out of range is BAD_VALUE. -/
def Obligations.ReadStationAndZones : Prop :=
  (∀ (tag address : Byte) (s : State), Taken s →
    (¬ (1 ≤ address.toNat ∧ address.toNat ≤ 60) →
      exec (.readStation tag address) s = .next (replyTo tag .badValue [] s)) ∧
    ∀ i : Fin 60, i.val + 1 = address.toNat → exec (.readStation tag address) s = .next (replyTo tag .done
      [address, yesNo (s.stations[i]).present, (s.stations[i]).kind.byte, (s.stations[i]).unit,
       (s.stations[i]).relayClass.byte] s)) ∧
  (∀ (tag index : Byte) (s : State), Taken s →
    (63 < index.toNat → exec (.readZone tag index) s = .next (replyTo tag .badValue [] s)) ∧
    ∀ i : ZoneIx, i.val = index.toNat → ∃ deep : Word16, exec (.readZone tag index) s = .next (replyTo tag .done
      ([index, yesNo (s.zone i).present, (s.zone i).zoneType.byte, levelByte (s.zone i).level, holdCode (s.zone i).hold]
        ++ bytes32 (s.zone i).box.railMin ++ bytes32 (s.zone i).box.railMax
        ++ bytes16 (s.zone i).box.slewMin ++ bytes16 (s.zone i).box.slewMax
        ++ bytes16 (s.zone i).box.reachMin ++ bytes16 (s.zone i).box.reachMax
        ++ bytes16 (s.zone i).box.lowerMin ++ bytes16 (s.zone i).box.lowerMax
        ++ [(s.zone i).fromZone, (s.zone i).toZone, ownerCode (s.zone i).owner] ++ bytes16 deep
        ++ [yesNo (decide (i.val < s.zones.limit))]) s) ∧
      ((s.zone i).zoneType ≠ .hold → deep = 0) ∧
      ∀ h, (s.zone i).zoneType = .hold → (s.zone i).hold = some h →
        deep.toNat = max ((s.zone i).box.lowerMax.toNat - (s.freeboard[h]).toNat) (s.zone i).box.lowerMin.toNat) ∧
  ∀ (tag index level : Byte) (s : State), Taken s →
    ((63 < index.toNat ∨ 3 < level.toNat) →
      exec (.queryZone tag index level) s = .next (replyTo tag .badValue [] s)) ∧
    ∀ i : ZoneIx, i.val = index.toNat → level.toNat ≤ 3 → ∃ admits : Bool,
      exec (.queryZone tag index level) s = .next (replyTo tag .done
        [yesNo (decide (i.val < s.zones.limit)), (s.zone i).zoneType.byte, levelByte (s.zone i).level,
         yesNo (s.zone i).present, ownerCode (s.zone i).owner, yesNo admits] s) ∧
      (admits = true ↔ i ≠ 0 ∧ i.val < s.zones.limit ∧ (s.zone i).zoneType ≠ .route ∧
        max level.toNat s.console.val ≤ (s.zone i).level.val ∧ (s.zone i).present = true)

/-- READ_HEAD and GET_STATUS answer with the state as it stands, byte by byte, and change nothing. -/
def Obligations.ReadHeadAndStatus : Prop :=
  (∀ (tag index : Byte) (s : State), Taken s →
    (15 < index.toNat → exec (.readHead tag index) s = .next (replyTo tag .badValue [] s)) ∧
    ∀ i : HeadIx, i.val = index.toNat → exec (.readHead tag index) s = .next (replyTo tag .done
      ([index, yesNo (s.heads[i]).present, (s.heads[i]).station, holdCode (s.heads[i]).hold]
        ++ bytes16 (s.heads[i]).watch ++ bytes16 (s.heads[i]).alarm ++ bytes16 (s.heads[i]).trip
        ++ bytes16 (s.heads[i]).hysteresis
        ++ [(s.heads[i]).persistence, 0, (s.heads[i]).state.byte] ++ bytes16 (s.heads[i]).sample
        ++ [yesNo (s.heads[i]).sampleValid, byteOfNat (s.heads[i]).riseCount, (s.heads[i]).riseLevel.byte,
            byteOfNat (s.heads[i]).fallCount, byteOfNat (s.heads[i]).missCount, yesNo (s.heads[i]).sampled,
            s.cycle.state.byte, yesNo s.cycle.overrun]) s)) ∧
  ∀ (tag : Byte) (s : State), Taken s → ∃ flags mask : Word16,
    exec (.getStatus tag) s = .next (replyTo tag .done
      ([s.runc.state.byte, haltCauseCode s.runc.haltCause, allStopCode s.runc.allStop] ++ bytes16 flags ++ bytes16 mask
        ++ [levelByte s.console, yesNo s.pins.keyActive]
        ++ [s.spouts.a.state.byte, byteOfNat s.spouts.a.current.val, byteOfNat s.spouts.a.target.val,
            yesNo s.spouts.a.recovery, yesNo s.spouts.a.overreach, lostCauseCode s.spouts.a.lostCause,
            s.spouts.a.driveFlags]
        ++ [s.spouts.b.state.byte, byteOfNat s.spouts.b.current.val, byteOfNat s.spouts.b.target.val,
            yesNo s.spouts.b.recovery, yesNo s.spouts.b.overreach, lostCauseCode s.spouts.b.lostCause,
            s.spouts.b.driveFlags]
        ++ [s.gates.a.state.byte, settingByte s.gates.a.confirmed, demandedCode s.gates.a.state]
        ++ [s.gates.b.state.byte, settingByte s.gates.b.confirmed, demandedCode s.gates.b.state]
        ++ s.holdDust.toList.map Dust.byte ++ [byteOfNat s.relayQueue.length] ++ bytes16 s.stepCounter
        ++ bytes32 s.unbilled) s) ∧
    (∀ n : Fin 13, flags.getLsbD (n.val + 1) = s.notices.flags[n] ∧ mask.getLsbD (n.val + 1) = s.notices.mask[n]) ∧
    flags.getLsbD 0 = false ∧ mask.getLsbD 0 = false ∧ ∀ k, 14 ≤ k → flags.getLsbD k = false ∧ mask.getLsbD k = false

/-! ## Travel and dust requests -/

/-- SET_FREEBOARD: BAD_VALUE out of range; else the offset is written, every spout SETTLED over the hold has its overreach
flag tested against the new depth, the REPLY is the last answer made ready before the arbiter's run at the event's end (logs 12
and 26), and no other part of a spout record changes. -/
def Obligations.SetFreeboard : Prop :=
  ∀ (tag hold : Byte) (offset : Word16) (s : State), Taken s →
    (¬ ((1 ≤ hold.toNat ∧ hold.toNat ≤ 9) ∧ offset.toNat ≤ 5000) →
      exec (.setFreeboard tag hold offset) s = .next (arbitrate (replyTo tag .badValue [] s))) ∧
    ∀ h : Hold, h.val + 1 = hold.toNat → offset.toNat ≤ 5000 →
      ∃ u : State, exec (.setFreeboard tag hold offset) s = .next (arbitrate u) ∧
        u.freeboard = s.freeboard.set h.val offset ∧
        u.sport.ready.getLast? = some (replyAnswer tag .done []) ∧
        (∀ sp, ∃ deep : Bool, u.spouts.get sp = { s.spouts.get sp with overreach := deep } ∧
          (settledOver s sp h = false → deep = (s.spouts.get sp).overreach) ∧
          (settledOver s sp h = true → (deep = true ↔ (s.spouts.get sp).posValid = true ∧
            max ((s.zone (s.spouts.get sp).current).box.lowerMax.toNat - offset.toNat)
              (s.zone (s.spouts.get sp).current).box.lowerMin.toNat < (s.spouts.get sp).position.lower.toNat) ∧
            (deep = true → (s.spouts.get sp).overreach = false → u.notices.flags[(5 : Fin 13)] = true))) ∧
        u.zones = s.zones ∧ u.runc = s.runc ∧ u.heads = s.heads ∧ u.holdDust = s.holdDust ∧ u.console = s.console ∧
        u.settings = s.settings ∧ u.stations = s.stations ∧ u.gates = s.gates ∧ u.clock = s.clock ∧
        u.unbilled = s.unbilled ∧ u.line = s.line

/-- SAMPLE_NOW: NOT_RUNNING in CONFIG, BUSY while CYCLING; in RUN and HALT with the cycle IDLE a cycle starts: the timer at
the period in use, the latch clear, no head sampled, and the pending head the lowest present one, if any. The arbiter runs once,
after the REPLY is ready (logs 12 and 26). -/
def Obligations.SampleNow : Prop :=
  ∀ (tag : Byte) (s : State), Taken s →
    (s.runc.state = .config → exec (.sampleNow tag) s = .next (arbitrate (replyTo tag .notRunning [] s))) ∧
    (s.runc.state ≠ .config → s.cycle.state = .cycling →
      exec (.sampleNow tag) s = .next (arbitrate (replyTo tag .busy [] s))) ∧
    (s.runc.state ≠ .config → s.cycle.state = .idle →
      ∃ u : State, exec (.sampleNow tag) s = .next (arbitrate u) ∧
        u.sport = { (heard s).sport with ready := s.sport.ready ++ [replyAnswer tag .done []] } ∧
        u.cycle.timer = some s.settings.inUse.cyclePeriod.toNat ∧ u.cycle.overrun = false ∧
        (∀ i : HeadIx, u.heads[i] = { s.heads[i] with sampled := false }) ∧
        ((∀ i : HeadIx, (s.heads[i]).present = false) → u.cycle.state = .idle ∧ u.cycle.pendingHead = none) ∧
        (∀ i : HeadIx, (s.heads[i]).present = true → (∀ j : HeadIx, j < i → (s.heads[j]).present = false) →
          u.cycle.state = .cycling ∧ u.cycle.pendingHead = some i ∧
          (pollOnLine s (s.heads[i]).station = true ∨ ∃ p ∈ u.polls, p.station = (s.heads[i]).station)) ∧
        u.runc = s.runc ∧ u.holdDust = s.holdDust ∧ u.plan = s.plan ∧ u.notices = s.notices ∧ u.orders = s.orders ∧
        u.relayQueue = s.relayQueue ∧ u.spouts = s.spouts ∧ u.gates = s.gates ∧ u.bills = s.bills ∧ u.line = s.line)

/-- ACK_TRIP: BAD_VALUE for no present head; DONE with the state and no change outside TRIP; TRIP_PERSISTS unless the latest
sample is valid and below the trip threshold less the hysteresis; else the head is in ALARM with its counts 0, the change is
carried to the hold dust states and made known, and then the REPLY is ready. The arbiter runs once, after it (logs 12 and 26). -/
def Obligations.AckTrip : Prop :=
  ∀ (tag index : Byte) (s : State), Taken s →
    (15 < index.toNat → exec (.ackTrip tag index) s = .next (arbitrate (replyTo tag .badValue [] s))) ∧
    ∀ i : HeadIx, i.val = index.toNat →
      ((s.heads[i]).present = false → exec (.ackTrip tag index) s = .next (arbitrate (replyTo tag .badValue [] s))) ∧
      ((s.heads[i]).present = true → (s.heads[i]).state ≠ .live .trip →
        exec (.ackTrip tag index) s = .next (arbitrate (replyTo tag .done [(s.heads[i]).state.byte] s))) ∧
      ((s.heads[i]).present = true → (s.heads[i]).state = .live .trip →
        ¬ ((s.heads[i]).sampleValid = true ∧
          (s.heads[i]).sample.toNat + (s.heads[i]).hysteresis.toNat < (s.heads[i]).trip.toNat) →
        exec (.ackTrip tag index) s = .next (arbitrate (replyTo tag .tripPersists [] s))) ∧
      ((s.heads[i]).present = true → (s.heads[i]).state = .live .trip → (s.heads[i]).sampleValid = true →
        (s.heads[i]).sample.toNat + (s.heads[i]).hysteresis.toNat < (s.heads[i]).trip.toNat →
        ∃ u : State, exec (.ackTrip tag index) s = .next (arbitrate u) ∧
          u = pushReady (replyAnswer tag .done [2]) (changeHead i { s.heads[i] with
            state := .live .alarm, riseCount := 0, fallCount := 0, riseLevel := .watch } (heard s)) ∧
          u.heads = s.heads.set i.val { s.heads[i] with
            state := .live .alarm, riseCount := 0, fallCount := 0, riseLevel := .watch } ∧
          u.sport.ready.getLast? = some (replyAnswer tag .done [2]) ∧
          u.cycle = s.cycle ∧ u.runc = s.runc ∧ u.spouts = s.spouts ∧ u.zones = s.zones ∧ u.settings = s.settings ∧
          u.stations = s.stations ∧ u.gates = s.gates ∧ u.console = s.console ∧ u.freeboard = s.freeboard ∧
          u.clock = s.clock ∧ u.unbilled = s.unbilled ∧ u.line = s.line)

/-- A valid sample and a miss on one head. A sample's level is the highest threshold it is at or above. The sample is kept; TRIP is
latched; a rise needs the persistence and goes to the lowest level of its run; a fall goes one level; a sample short of the
persistence counts and leaves the state. A miss leaves the counts and the state, but at the second in a row a head that is not in
TRIP becomes SILENT with its counts 0; the next valid sample judges it in QUIET. -/
def Obligations.HeadJudgement : Prop :=
  ∀ (h : Head) (c : Word16), h.Good →
    ((1 ≤ (sampleLevel h c).rank ↔ h.watch.toNat ≤ c.toNat) ∧ (2 ≤ (sampleLevel h c).rank ↔ h.alarm.toNat ≤ c.toNat) ∧
      (3 ≤ (sampleLevel h c).rank ↔ h.trip.toNat ≤ c.toNat)) ∧
    ((validSample c h).sample = c ∧ (validSample c h).sampleValid = true ∧ (validSample c h).missCount = 0) ∧
    (h.state = .live .trip → validSample c h = { h with sample := c, sampleValid := true, missCount := 0 } ∧
      (missSample h).state = .live .trip) ∧
    (h.state = .silent →
      validSample c h = validSample c { h with state := .live .quiet, riseCount := 0, fallCount := 0 } ∧
      (∃ d, (validSample c h).state = .live d) ∧ (missSample h).state = .silent) ∧
    (∀ d, d ≠ .trip → h.state = .live d → d.rank < (sampleLevel h c).rank →
      let level := if h.riseCount = 0 then sampleLevel h c else Dust.min h.riseLevel (sampleLevel h c)
      (h.riseCount + 1 = h.persistence.toNat →
        (validSample c h).state = .live level ∧ (validSample c h).riseCount = 0 ∧ (validSample c h).fallCount = 0) ∧
      (h.riseCount + 1 ≠ h.persistence.toNat →
        (validSample c h).state = .live d ∧ (validSample c h).riseCount = h.riseCount + 1 ∧
          (validSample c h).riseLevel = level ∧ (d ≠ .quiet → (validSample c h).fallCount = 0))) ∧
    (∀ d, d ≠ .trip → h.state = .live d → ¬ d.rank < (sampleLevel h c).rank →
      (validSample c h).riseCount = 0 ∧
      (d = .quiet → (validSample c h).state = .live .quiet ∧ (validSample c h).fallCount = h.fallCount) ∧
      (d = .watch → c.toNat + h.hysteresis.toNat < h.watch.toNat →
        (h.fallCount + 1 = h.persistence.toNat →
          (validSample c h).state = .live .quiet ∧ (validSample c h).fallCount = 0) ∧
        (h.fallCount + 1 ≠ h.persistence.toNat →
          (validSample c h).state = .live .watch ∧ (validSample c h).fallCount = h.fallCount + 1)) ∧
      (d = .alarm → c.toNat + h.hysteresis.toNat < h.alarm.toNat →
        (h.fallCount + 1 = h.persistence.toNat →
          (validSample c h).state = .live .watch ∧ (validSample c h).fallCount = 0) ∧
        (h.fallCount + 1 ≠ h.persistence.toNat →
          (validSample c h).state = .live .alarm ∧ (validSample c h).fallCount = h.fallCount + 1)) ∧
      (d = .watch → ¬ c.toNat + h.hysteresis.toNat < h.watch.toNat →
        (validSample c h).state = .live .watch ∧ (validSample c h).fallCount = 0) ∧
      (d = .alarm → ¬ c.toNat + h.hysteresis.toNat < h.alarm.toNat →
        (validSample c h).state = .live .alarm ∧ (validSample c h).fallCount = 0)) ∧
    ((missSample h).sampleValid = false ∧ (missSample h).sample = h.sample ∧
      (missSample h).missCount = min 2 (h.missCount + 1) ∧ (missSample h).riseLevel = h.riseLevel) ∧
    (h.missCount = 1 → h.state ≠ .live .trip →
      (missSample h).state = .silent ∧ (missSample h).riseCount = 0 ∧ (missSample h).fallCount = 0) ∧
    (h.missCount ≠ 1 ∨ h.state = .live .trip → (missSample h).state = h.state ∧
      (missSample h).riseCount = h.riseCount ∧ (missSample h).fallCount = h.fallCount)

/-- A hold's derived dust state is the highest among the present heads of the hold and of the quay, SILENT counted as ALARM,
and a recomputation after a head's change leaves every other hold's state. What a change of a head's state starts: the
recomputation; DUST_TRIP for a hold that rose to TRIP and DUST_ALARM for one that rose to ALARM, with the last such hold as
subject; then for spout A and spout B the pour block and the reduce order of an ALARM rise; then the activation test. -/
def Obligations.HoldDustIsTheHighest : Prop :=
  (∀ (s : State) (h : Hold),
    (∀ i : HeadIx, (s.heads[i]).countsFor h = true → (s.heads[i]).state.counts.rank ≤ (derivedDust s h).rank) ∧
    (derivedDust s h = .quiet ∨
      ∃ i : HeadIx, (s.heads[i]).countsFor h = true ∧ (s.heads[i]).state.counts = derivedDust s h) ∧
    ∀ x : Head, (recomputeHolds x s).holdDust[h]
      = if x.hold = none ∨ x.hold = some h then derivedDust s h else s.holdDust[h]) ∧
  (∀ (s : State) (i : HeadIx) (h : Head), changeHead i h s =
    if h.state = (s.heads[i]).state then s.withHeads (s.heads.set i.val h)
    else dustKnown s (recomputeHolds h (s.withHeads (s.heads.set i.val h)))) ∧
  (∀ before s : State,
    let rose := fun (h : Hold) (d : Dust) => (before.holdDust[h]).rank < (s.holdDust[h]).rank ∧ s.holdDust[h] = d
    (s.holdDust = before.holdDust → dustKnown before s = s) ∧
    (s.holdDust ≠ before.holdDust → ∃ told : Notices,
      dustKnown before s = activationTest (dustSpout before .b (dustSpout before .a (s.withNotices told))) ∧
      told.mask = s.notices.mask ∧
      (∀ n : Fin 13, n ≠ 1 → n ≠ 6 → told.flags[n] = s.notices.flags[n] ∧ told.subjects[n] = s.notices.subjects[n]) ∧
      ∀ (n : Fin 13) (d : Dust), (n = 1 ∧ d = .trip ∨ n = 6 ∧ d = .alarm) →
        (told.flags[n] = true ↔ s.notices.flags[n] = true ∨ ∃ h, rose h d) ∧
        ((∀ h, ¬ rose h d) → told.subjects[n] = s.notices.subjects[n]) ∧
        ∀ h : Hold, rose h d → (∀ k : Hold, h < k → ¬ rose k d) → told.subjects[n] = BitVec.ofNat 16 (h.val + 1))) ∧
  ∀ (before s : State) (sp : Spout),
    dustSpout before sp s = alarmReduce before sp (evaluateBlock (decide (blockCause before sp ≠ 0)) sp s) ∧
    let rises := fitted s sp = true ∧ ∃ h, currentHold s sp = some h ∧ s.holdDust[h] = .alarm ∧
      (before.holdDust[h] = .quiet ∨ before.holdDust[h] = .watch)
    (¬ rises → alarmReduce before sp s = s) ∧
    (activeStep s sp = none → alarmReduce before sp s = s) ∧
    ∀ r, activeStep s sp = some r →
      (capNumber before r ≤ capNumber s r → alarmReduce before sp s = s) ∧
      (rises → capNumber s r < capNumber before r →
        ∃ x : Setting, x.val = capNumber s r ∧ alarmReduce before sp s = reduceTo sp x s)

/-! ## Relays: arrival, dispatch, the arbiter -/

/-- A MOVE is refused by the first check that fails: RELAY's arrival checks, then the TCU's check sequence; a refusal has no
other effect. Where both tables pass, the TCU accepts with the class of R64 and R65. The arbiter runs once, after the answer is
ready (logs 12 and 26). -/
def Obligations.MoveChecksInOrder : Prop :=
  ∀ (tag dest : Byte) (m : MoveFields) (s : State), s.zones.limit ≤ 64 →
    (Taken s → fieldAddress dest = false → exec (.move tag dest m) s = .next (refusalTo tag .badDest dest 0x20 s)) ∧
    (∀ reason subject, Taken s → fieldAddress dest = true →
      firstFailure (arrivalTable s tag dest (.move m)) = some (reason, subject) →
      exec (.move tag dest m) s = .next (arbitrate (refusalTo tag reason subject 0x20 s))) ∧
    (∀ reason subject, Taken s → fieldAddress dest = true → firstFailure (arrivalTable s tag dest (.move m)) = none →
      firstFailure (moveTable s m) = some (reason, subject) →
      exec (.move tag dest m) s = .next (arbitrate (refusalTo tag reason subject 0x20 s))) ∧
    (firstFailure (moveTable s m) = none →
      ∃ i : ZoneIx, i.val = m.target.toNat ∧ moveCheck s m = .ok (moveClass s m, i))

/-- A MOVE that passes every check is queued. Of class SAME_ZONE it changes no spout and no claim; otherwise the spout is
MOVING to the target, which it claims, and its overreach flag is no. The arbiter runs once, at the event's end (log 26). -/
def Obligations.MoveQueued : Prop :=
  ∀ (tag dest : Byte) (m : MoveFields) (s : State), s.zones.limit ≤ 64 → Taken s → fieldAddress dest = true →
    firstFailure (arrivalTable s tag dest (.move m)) = none → firstFailure (moveTable s m) = none →
    ∃ (u : State) (i : ZoneIx), i.val = m.target.toNat ∧ exec (.move tag dest m) s = .next (arbitrate u) ∧
      u.relayQueue = s.relayQueue ++ [RelayEntry.mk tag dest (.move m (moveClass s m)
        (moveClass s m != .sameZone && (s.zone i).owner != some m.spout)) false] ∧
      u.sport = { (heard s).sport with reserved := s.sport.reserved ++ [tag] } ∧
      (moveClass s m = .sameZone → u.spouts = s.spouts ∧ u.zones = s.zones ∧ u.plan = s.plan ∧ u.orders = s.orders) ∧
      (moveClass s m ≠ .sameZone →
        u.spouts = s.spouts.set m.spout { s.spouts.get m.spout with
          state := .moving, target := i, recovery := moveClass s m == .recovery, overreach := false } ∧
        (∀ j : ZoneIx, u.zone j = if j = i then { s.zone i with owner := some m.spout } else s.zone j)) ∧
      u.zones.limit = s.zones.limit ∧ u.gates = s.gates ∧ u.line = s.line ∧ u.runc = s.runc ∧ u.heads = s.heads ∧
      u.holdDust = s.holdDust ∧ u.settings = s.settings ∧ u.stations = s.stations ∧ u.polls = s.polls ∧
      u.unbilled = s.unbilled ∧ u.clock = s.clock

/-- A GATE or a PLAIN is refused by the first check that fails, with no other effect: RELAY's arrival checks, and for a
setting above 0 GATE's check of the request. The pour block's cause is the lowest-numbered that holds. The arbiter runs once,
after the answer is ready (logs 12 and 26). -/
def Obligations.GateAndPlainChecksInOrder : Prop :=
  (∀ (tag dest : Byte) (g : GateFields) (s : State), Taken s →
    (fieldAddress dest = false → exec (.gate tag dest g) s = .next (refusalTo tag .badDest dest 0x21 s)) ∧
    (∀ reason subject, fieldAddress dest = true →
      firstFailure (arrivalTable s tag dest (.gate g)) = some (reason, subject) →
      exec (.gate tag dest g) s = .next (arbitrate (refusalTo tag reason subject 0x21 s))) ∧
    (∀ reason subject, fieldAddress dest = true → firstFailure (arrivalTable s tag dest (.gate g)) = none →
      g.setting ≠ 0 → firstFailure (gateTable s g.spout) = some (reason, subject) →
      exec (.gate tag dest g) s = .next (arbitrate (refusalTo tag reason subject 0x21 s)))) ∧
  (∀ (tag dest : Byte) (data : List Byte) (s : State), Taken s → data.length ≤ 48 →
    (fieldAddress dest = false → exec (.plain tag dest data) s = .next (refusalTo tag .badDest dest 0x22 s)) ∧
    (∀ reason subject, fieldAddress dest = true →
      firstFailure (arrivalTable s tag dest .plain) = some (reason, subject) →
      exec (.plain tag dest data) s = .next (arbitrate (refusalTo tag reason subject 0x22 s)))) ∧
  ∀ (s : State) (sp : Spout),
    (pourBlock s sp).map BlockCause.byte = if blockCause s sp = 0 then none else some (blockCause s sp)

/-- A GATE or a PLAIN that passes is queued and nothing else changes before the arbiter runs. A setting of 0 is forwarded as
0; one above 0 as the smaller of the request and the cap, trimmed where the cap is smaller. The arbiter runs once, at the event's
end (log 26). -/
def Obligations.GateAndPlainQueued : Prop :=
  (∀ (tag dest : Byte) (g : GateFields) (s : State), Taken s → fieldAddress dest = true →
    firstFailure (arrivalTable s tag dest (.gate g)) = none →
    (g.setting = 0 → exec (.gate tag dest g) s = .next (arbitrate (queued tag dest (.gate g 0 false) s))) ∧
    (g.setting ≠ 0 → firstFailure (gateTable s g.spout) = none →
      ∃ (r : StepRec) (x : Setting), pouringStep s g.spout = some r ∧ r.state = .active ∧
        x.val = min g.setting.val (capNumber s r) ∧
        exec (.gate tag dest g) s
          = .next (arbitrate (queued tag dest (.gate g x (decide (capNumber s r < g.setting.val))) s)))) ∧
  ∀ (tag dest : Byte) (data : List Byte) (s : State), Taken s → data.length ≤ 48 → fieldAddress dest = true →
    firstFailure (arrivalTable s tag dest .plain) = none →
    exec (.plain tag dest data) s = .next (arbitrate (queued tag dest (.plain data) s))

/-- The dispatch recheck is its table: the first row that fails refuses the entry; otherwise the entry goes out with the body
it holds, but a GATE whose request is 0 as 0, and one whose request is above 0 with its setting and trimmed mark fixed against the
cap in force, also where its provisional forwarded setting was 0 (log 10). -/
def Obligations.DispatchRecheck : Prop :=
  ∀ (s : State) (e : RelayEntry),
    (∀ x, firstFailure (dispatchTable s e) = some x → dispatchCheck s e = .error x) ∧
    (firstFailure (dispatchTable s e) = none →
      (∀ m cls c, e.body = .move m cls c → dispatchCheck s e = .ok e.body) ∧
      (∀ d, e.body = .plain d → dispatchCheck s e = .ok e.body) ∧
      (∀ g fwd t, e.body = .gate g fwd t → g.setting = 0 → dispatchCheck s e = .ok (.gate g 0 false)) ∧
      ∀ g fwd t, e.body = .gate g fwd t → g.setting ≠ 0 → ∃ (r : StepRec) (x : Setting), pouringStep s g.spout = some r ∧
        x.val = min g.setting.val (capNumber s r) ∧
        dispatchCheck s e = .ok (.gate g x (decide (capNumber s r < g.setting.val))))

/-- The order queue: an order replaces the waiting one of its station in place or joins the tail, and a second ALL_STOP changes
nothing. The arbiter: nothing while a transaction is on the line; else the oldest order leaves the queue and goes out first; then
polls and relays by the last served mark. Each frame carries the field tag and the counter moves. A relayed GATE becomes CHANGING
with its prior state kept, and the activation test follows. An entry that fails its recheck is answered and withdrawn, and the
arbiter chooses again from the start (log 17); it runs once, at an event's end (log 26). -/
def Obligations.ArbiterOrder : Prop :=
  (∀ (o : Order) (q : List Order),
    ((∀ x ∈ q, x.station ≠ o.station) → queueOrder o q = q ++ [o]) ∧
    ((∃ x ∈ q, x.station = o.station) → o.kind = .allStop → queueOrder o q = q) ∧
    ((∃ x ∈ q, x.station = o.station) → o.kind ≠ .allStop →
      queueOrder o q = q.map fun x => if x.station = o.station then o else x)) ∧
  (∀ r : GateRest, (GateState.rest r).prior = r) ∧
  ∀ s : State,
    (s.line.engine ≠ .free ∨ s.pins.restartAsserted = true → arbitrate s = s) ∧
    (s.line.engine = .free → s.pins.restartAsserted = false →
      (∀ o rest, s.orders = o :: rest → arbitrate s = orderSent o.kind o.poster o.station 1 (s.withOrders rest)) ∧
      (s.orders = [] → s.polls ≠ [] → (s.line.lastServed = .relays ∨ ∀ e ∈ s.relayQueue, e.onLine = true) →
        ∃ p ∈ s.polls, ∃ f : Frame, (∀ q ∈ s.polls, p.kind.rank ≤ q.kind.rank) ∧
          arbitrate s = (s.withPolls (s.polls.erase p)).withLine
            { engine := .sending { work := .poll p.kind, station := p.station, fieldTag := s.line.fieldTag } f,
              fieldTag := s.line.fieldTag + 1, lastServed := .polls } ∧
          f.dest = p.station ∧ f.source = 0 ∧ f.tag = s.line.fieldTag ∧ f.flags = 0 ∧ f.payload = [] ∧
          (∀ sp, p.kind = .position sp → f.kind = 0x30) ∧ (∀ i, p.kind = .dust i → f.kind = 0x31) ∧
          (∀ sp, p.kind = .scale sp → f.kind = 0x32)) ∧
      (s.orders = [] → (s.line.lastServed = .polls ∨ s.polls = []) →
        ∀ e, s.relayQueue.find? (fun x => !x.onLine) = some e →
          (∀ body, dispatchCheck s e = .ok body → ∃ f : Frame,
            let t := (s.withRelayQueue (s.relayQueue.map fun x =>
              if x.tag = e.tag then { x with body, onLine := true } else x)).withLine
                { engine := .sending { work := .relay e.tag, station := e.dest, fieldTag := s.line.fieldTag } f,
                  fieldTag := s.line.fieldTag + 1, lastServed := .relays }
            f.dest = e.dest ∧ f.source = 0 ∧ f.tag = s.line.fieldTag ∧ f.flags = 0 ∧
            (∀ m cls c, body = .move m cls c → f.kind = 0x20 ∧ f.payload = m.bytes ∧ arbitrate s = t) ∧
            (∀ d, body = .plain d → f.kind = 0x22 ∧ f.payload = d ∧ arbitrate s = t) ∧
            ∀ g x b, body = .gate g x b →
              f.kind = 0x21 ∧ f.payload = [g.spout.byte, levelByte g.level, settingByte x] ∧
              arbitrate s = activationTest (t.withGates (s.gates.set g.spout { s.gates.get g.spout with
                state := .changing x (.relay (s.gates.get g.spout).state.prior) }))) ∧
          ∀ x, dispatchCheck s e = .error x → arbitrate s = arbitrate (withdrawMove e
            ((s.withRelayQueue (s.relayQueue.filter fun y => y.tag ≠ e.tag)).withSport
              { s.sport with
                reserved := s.sport.reserved.erase e.tag
                ready := s.sport.ready ++ [refusalAnswer e.tag x.1 x.2 e.body.kindByte] }))) ∧
      (s.orders = [] → s.polls = [] → (∀ e ∈ s.relayQueue, e.onLine = true) → arbitrate s = s))

/-! ## The field line -/

/-- The end of a field frame's transmission: an ALL_STOP ends its transaction and reports SENT, which the all-stop status takes
unless a later HALT entry's ALL_STOP still waits (log 29), and the arbiter runs (log 26); any other frame awaits its answer for
the reply timeout in use. -/
def Obligations.FieldFrameSent : Prop :=
  ∀ (s : State) (t : Transaction) (f : Frame), s.line.engine = .sending t f →
    (∀ p n, t.work = .order .allStop p n → exec .fieldFrameSent s = .next (arbitrate
      ((s.withLine { s.line with engine := .free }).withRunc
        { s.runc with allStop := if ∃ o ∈ s.orders, o.kind = .allStop then s.runc.allStop else some .sent }))) ∧
    ((∀ p n, t.work ≠ .order .allStop p n) → exec .fieldFrameSent s = .next
      (s.withLine { s.line with engine := .awaiting t s.settings.inUse.replyTimeout.toNat }))

/-- Field frames that are discarded only put the receiver back in HUNT, and set no notice: a wrong check word or length, the
time limit, a header R14 does not hand on, an answer that matches no waiting transaction. While the part transmits on the
line or the restart input is asserted it hears nothing (the first is log 14's). A start byte in HUNT starts the frame clock;
in FRAME it is data. -/
def Obligations.FieldFramesDiscarded : Prop :=
  (∀ (f : Frame) (w : Word16) (s : State),
    let deaf := s.pins.restartAsserted = true ∨ ∃ t g, s.line.engine = .sending t g
    let dropped := s.withSport { s.sport with fldRx := .hunt }
    (deaf → exec (.fieldFrameReceived f w) s = .next s ∧ exec .fieldFrameLengthDiscard s = .next s ∧
      exec .fieldCheckWordMismatch s = .next s ∧ exec (.startByteReceived .field) s = .next s) ∧
    (¬ deaf → exec .fieldFrameLengthDiscard s = .next dropped ∧ exec .fieldCheckWordMismatch s = .next dropped ∧
      (f.wf = false ∨ w ≠ f.check → exec (.fieldFrameReceived f w) s = .next dropped) ∧
      (f.dest ≠ 0 ∨ ¬ (1 ≤ f.source.toNat ∧ f.source.toNat ≤ 60) ∨ f.kind ≠ 0xC0 ∨ f.payload = [] →
        exec (.fieldFrameReceived f w) s = .next dropped) ∧
      ((∀ t n, s.line.engine = .awaiting t n → f.source ≠ t.station ∨ f.tag ≠ t.fieldTag) →
        exec (.fieldFrameReceived f w) s = .next dropped) ∧
      (s.sport.fldRx = .hunt →
        exec (.startByteReceived .field) s = .next (s.withSport { s.sport with fldRx := .frame 0 })) ∧
      (∀ n, s.sport.fldRx = .frame n → exec (.startByteReceived .field) s = .next s)) ∧
    exec .fieldFrameTimeLimit s = .next dropped) ∧
  ∀ s : State,
    (s.pins.restartAsserted = true → exec (.startByteReceived .supervisor) s = .next s) ∧
    (s.pins.restartAsserted = false → s.sport.supRx = .hunt →
      exec (.startByteReceived .supervisor) s = .next (s.withSport { s.sport with supRx := .frame 0 })) ∧
    (∀ n, s.sport.supRx = .frame n → exec (.startByteReceived .supervisor) s = .next s)

/-- A relay's transaction ends: the answer's whole payload goes up as RELAYED, or REFUSAL NO_REPLY where the timer ran out;
the entry leaves the queue; and the block that owns the request takes the outcome. That this answer is ready before the refusals
the outcome causes is the model's choice (log 12); the arbiter runs once, at the event's end (log 26). -/
def Obligations.RelayEnds : Prop :=
  ∀ (s : State) (c : Instr) (t : Transaction) (answer : Option (List Byte)) (tag : Byte) (e : RelayEntry),
    Ends s t c answer → t.work = .relay tag → s.relayQueue.find? (fun x => x.tag == tag) = some e →
    ∃ u : State, exec c s = .next (arbitrate u) ∧ u.line = { s.line with engine := .free } ∧
      (∃ up : Answer, s.sport.ready ++ [up] <+: u.sport.ready ∧ up.tag = e.tag ∧ up.isRestart = false ∧
        (∀ p, answer = some p → up.kind = .relayed ∧ up.payload = p ∧
          (up.trimmed = true ↔ ∃ g x, e.body = .gate g x true)) ∧
        (answer = none → up.kind = .refusal ∧ up.payload = [Code.noReply.byte, e.dest, e.body.kindByte] ∧
          up.trimmed = false)) ∧
      (∀ x ∈ u.relayQueue, x ∈ s.relayQueue ∧ x.tag ≠ e.tag) ∧
      (∀ d, e.body = .plain d → u.spouts = s.spouts ∧ u.zones = s.zones ∧ u.gates = s.gates ∧ u.plan = s.plan ∧
        u.orders = s.orders ∧ u.notices = s.notices) ∧
      (∀ m cls b, e.body = .move m cls b → u.gates = s.gates ∧
        (answeredOk answer ∨ ¬ ((s.spouts.get m.spout).state = .moving ∧
            (s.spouts.get m.spout).target.val = m.target.toNat) →
          u.spouts = s.spouts ∧ u.zones = s.zones ∧ u.plan = s.plan ∧ u.orders = s.orders ∧ u.notices = s.notices) ∧
        (¬ answeredOk answer → (s.spouts.get m.spout).state = .moving →
          (s.spouts.get m.spout).target.val = m.target.toNat → ∃ deep : Bool,
          u.spouts = s.spouts.set m.spout { s.spouts.get m.spout with
            state := if (s.spouts.get m.spout).recovery then .lost else .settled,
            target := 0, recovery := false, overreach := deep } ∧
          (deep = true ↔ Deep s (u.spouts.get m.spout)) ∧
          ∀ i : ZoneIx, u.zone i = { s.zone i with
            owner := if i = (s.spouts.get m.spout).target ∧ i ≠ (s.spouts.get m.spout).current
                ∧ (s.zone i).owner = some m.spout then none else (s.zone i).owner })) ∧
      (∀ g x b, e.body = .gate g x b → u.spouts = s.spouts ∧ u.zones = s.zones ∧
        u.gates.get (otherSpout g.spout) = s.gates.get (otherSpout g.spout) ∧
        (answeredOk answer → u.gates.get g.spout
          = { state := .rest (if x = 0 then .closed else .opened), confirmed := x }) ∧
        (¬ answeredOk answer → ∀ d prior, (s.gates.get g.spout).state = .changing d (.relay prior) →
          u.gates.get g.spout = { (s.gates.get g.spout) with state := .rest prior }))

/-- An attempt of an order ends: OK, REJECT, or a failed attempt, which is superseded, sent again with the next attempt number
and a new field tag, or, after the third, FAILED as a REJECT is. A stop order that fails sets FIELD_SILENT. A setting answered OK
is confirmed; one that fails makes the gate UNSURE with GATE_UNSURE, and a failed setting above 0 posts a close, a failed close
in RUN is HALT entry with cause 2. The arbiter runs once, at the event's end (logs 12 and 26). -/
def Obligations.OrderEnds : Prop :=
  ∀ (s : State) (c : Instr) (t : Transaction) (answer : Option (List Byte)) (k : OrderKind) (poster : Poster) (n : Nat),
    Ends s t c answer → t.work = .order k poster n →
    let newer := ∃ o ∈ s.orders, o.station = t.station
    let failed := ¬ answeredOk answer ∧ ¬ answeredReject answer
    let refused := answeredReject answer ∨ (failed ∧ ¬ newer ∧ 3 ≤ n)
    let base := lineFreed answer s
    (∀ sp, k = .stop sp → answeredOk answer → exec c s = .next (arbitrate base)) ∧
    (∀ sp, k = .stop sp → refused →
      exec c s = .next (arbitrate (setNotice .fieldSilent (subjectByte t.station) base))) ∧
    (∀ sp x, k = .gate sp x → answeredOk answer → exec c s = .next (arbitrate (activationTest (base.withGates
      (s.gates.set sp { state := .rest (if x = 0 then .closed else .opened), confirmed := x }))))) ∧
    (∀ sp x, k = .gate sp x → refused →
      let v := setNotice .gateUnsure (subjectSpout sp)
        (base.withGates (s.gates.set sp { s.gates.get sp with state := .rest .unsure }))
      exec c s = .next (arbitrate (activationTest
        (if x ≠ 0 then v.withOrders (withGateOrder v sp 0 s.orders)
        else if s.runc.state = .run then haltEntered .gateFailure v
        else v)))) ∧
    (failed → newer → exec c s = .next (arbitrate base)) ∧
    (failed → ¬ newer → n < 3 → exec c s = .next (orderSent k poster t.station (n + 1) base))

/-- A position poll ends. A valid answer gives the record its position and drive flags and puts the missed count back, and
the state follows the zones it is compared with; without one the count goes up, and at 3 a spout that is not LOST becomes
LOST with cause STALE, with the target claim of a MOVING spout released. The overreach flag is the test's value; claims move with
the spout. The record and the claims are then made known, with the ORDER_STOP, the SPOUT_LOST refusals and the SPOUT_LOST notice
of every entry to LOST (log 16 for what makes a change known), and the arbiter runs once, at the event's end (logs 12 and 26). -/
def Obligations.PositionPollEnds : Prop :=
  ∀ (s : State) (c : Instr) (t : Transaction) (answer : Option (List Byte)) (sp : Spout),
    Ends s t c answer → t.work = .poll (.position sp) →
    let r := s.spouts.get sp
    ∃ (q : SpoutRec) (z : ZoneTable),
      exec c s = .next (arbitrate (recordKnown sp q z (lineFreed answer s))) ∧ z.limit = s.zones.limit ∧
      (∀ p flags, answer = some (positionPayload p flags) →
        let heardOf := fun (st : SpoutState) (cur tgt : ZoneIx) (rec : Bool) (cause : Option LostCause) =>
          q = { state := st, current := cur, target := tgt, recovery := rec, position := p, posValid := true,
                driveFlags := flags, missed := 0, lostCause := cause, overreach := q.overreach }
        (q.overreach = true ↔ Deep s q) ∧
        (r.state = .unknown → (∀ i, Places s sp p i → (∀ j, j < i → ¬ Places s sp p j) →
            heardOf .settled i r.target r.recovery r.lostCause ∧
            ∀ j : ZoneIx, z.entries[j] = if j = i then { s.zone i with owner := some sp } else s.zone j) ∧
          ((∀ i, ¬ Places s sp p i) → heardOf .lost r.current r.target false (some .noZone) ∧ z = s.zones)) ∧
        (r.state = .settled → z = s.zones ∧
          (Within p (s.zone r.current).box → heardOf .settled r.current r.target r.recovery r.lostCause) ∧
          (¬ Within p (s.zone r.current).box → heardOf .lost r.current r.target false (some .breach))) ∧
        (r.state = .moving →
          (Within p (s.zone r.target).box → heardOf .settled r.target 0 false none ∧
            ∀ j : ZoneIx, z.entries[j] = { s.zone j with
              owner := if j = r.current ∧ j ≠ r.target ∧ (s.zone j).owner = some sp then none else (s.zone j).owner }) ∧
          (¬ Within p (s.zone r.target).box → (r.recovery = true ∨ Within p (s.zone r.current).box) →
            heardOf .moving r.current r.target r.recovery r.lostCause ∧ z = s.zones) ∧
          (¬ Within p (s.zone r.target).box → r.recovery = false → ¬ Within p (s.zone r.current).box →
            heardOf .lost r.current 0 false (some .breach) ∧
            ∀ j : ZoneIx, z.entries[j] = { s.zone j with
              owner := if j = r.target ∧ j ≠ r.current ∧ (s.zone j).owner = some sp then none else (s.zone j).owner })) ∧
        (r.state = .lost → z = s.zones ∧
          (r.current ≠ 0 → Within p (s.zone r.current).box → heardOf .settled r.current r.target r.recovery none) ∧
          (r.current = 0 ∨ ¬ Within p (s.zone r.current).box →
            heardOf .lost r.current r.target r.recovery r.lostCause))) ∧
      ((∀ p flags, answer ≠ some (positionPayload p flags)) →
        (r.missed < 2 ∨ r.state = .lost → q = { r with missed := min 3 (r.missed + 1) } ∧ z = s.zones) ∧
        (2 ≤ r.missed → r.state ≠ .lost →
          q = { r with
            state := .lost, missed := 3, recovery := false, lostCause := some .stale, overreach := false,
            target := if r.state = .moving then 0 else r.target } ∧
          ∀ j : ZoneIx, z.entries[j] = { s.zone j with
            owner := if r.state = .moving ∧ j = r.target ∧ j ≠ r.current ∧ (s.zone j).owner = some sp then none
              else (s.zone j).owner }))

/-- A dust poll ends: the head's sampled mark is set and it is judged by the concentration, or takes a miss, with FIELD_SILENT at
the second in a row; the change is carried to the hold dust states and made known; the other heads keep everything. Then the next
unsampled present head's poll is asked for, or the cycle ends: IDLE, or with the overrun latch set the next cycle starts at once.
The arbiter runs once, at the event's end (logs 12 and 26). -/
def Obligations.DustPollEnds : Prop :=
  ∀ (s : State) (c : Instr) (t : Transaction) (answer : Option (List Byte)) (i : HeadIx),
    Ends s t c answer → t.work = .poll (.dust i) →
    let h := s.heads[i]
    let waits := fun j : HeadIx => (s.heads[j]).present = true ∧ (s.heads[j]).sampled = false ∧ j ≠ i
    let first := (List.finRange 16).find? fun j : HeadIx => (s.heads[j]).present
    let base := ((lineFreed answer s).withHeads (s.heads.set i.val { h with sampled := true })).withCycle
      { s.cycle with pendingHead := none }
    ∃ y : State,
      (∀ x : Word16, answer = some (0 :: (bytes16 x ++ [0])) →
        y = changeHead i { validSample x h with sampled := true } base) ∧
      ((∀ x : Word16, answer ≠ some (0 :: (bytes16 x ++ [0]))) →
        y = changeHead i { missSample h with sampled := true }
          (if h.missCount = 1 then setNotice .fieldSilent (subjectByte h.station) base else base)) ∧
      (∀ j : HeadIx, j ≠ i → y.heads[j] = s.heads[j]) ∧ (y.heads[i]).sampled = true ∧
      y.spouts = s.spouts ∧ y.zones = s.zones ∧ y.settings = s.settings ∧ y.runc = s.runc ∧ y.gates = s.gates ∧
      y.unbilled = s.unbilled ∧ y.clock = s.clock ∧ y.timers = s.timers ∧
      (∀ j, waits j → (∀ k, k < j → ¬ waits k) → exec c s = .next (arbitrate
        ((y.withCycle { s.cycle with pendingHead := some j }).withPolls
          (polled y y.polls { station := (s.heads[j]).station, kind := .dust j })))) ∧
      ((∀ j, ¬ waits j) → s.cycle.overrun = false →
        exec c s = .next (arbitrate (y.withCycle { s.cycle with state := .idle, pendingHead := none }))) ∧
      ((∀ j, ¬ waits j) → s.cycle.overrun = true → exec c s = .next (arbitrate
        (((y.withHeads (Vector.ofFn fun k => { y.heads[k] with sampled := false })).withCycle
          { state := if first.isSome then .cycling else .idle, pendingHead := first, overrun := false,
            timer := some s.settings.inUse.cyclePeriod.toNat }).withPolls
          ((firstDustPoll s).foldl (polled y) y.polls))))

/-- A scale poll ends: a valid totalizer sets an invalid baseline; a delta of 0 changes nothing; one above the limit in use
sets the baseline and SCALE_JUMP; a plausible one is placed in exactly one account, by the spout's current zone and the OPEN
bill; no valid answer changes nothing. The arbiter runs once, at the event's end (logs 12 and 26). -/
def Obligations.ScalePollEnds : Prop :=
  ∀ (s : State) (c : Instr) (t : Transaction) (answer : Option (List Byte)) (sp : Spout),
    Ends s t c answer → t.work = .poll (.scale sp) →
    let base := s.baselines.get sp
    ∃ u : State, exec c s = .next (arbitrate u) ∧ u.line = { s.line with engine := .free } ∧
      u.spouts = s.spouts ∧ u.zones = s.zones ∧ u.runc = s.runc ∧ u.heads = s.heads ∧ u.gates = s.gates ∧
      u.settings = s.settings ∧ u.clock = s.clock ∧
      ((∀ v : Word32, answer ≠ some (0 :: (bytes32 v ++ [0]))) →
        u.baselines = s.baselines ∧ u.bills = s.bills ∧ u.unbilled = s.unbilled ∧ u.plan = s.plan) ∧
      ∀ v : Word32, answer = some (0 :: (bytes32 v ++ [0])) →
        u.baselines = s.baselines.set sp { value := v, valid := true } ∧
        (base.valid = false ∨ v = base.value →
          u.bills = s.bills ∧ u.unbilled = s.unbilled ∧ u.plan = s.plan ∧ u.notices = s.notices) ∧
        (base.valid = true → s.settings.inUse.maxDelta.toNat < (v - base.value).toNat →
          u.bills = s.bills ∧ u.unbilled = s.unbilled ∧ u.plan = s.plan ∧
          u.notices.flags[(7 : Fin 13)] = true ∧ u.notices.subjects[(7 : Fin 13)] = subjectSpout sp) ∧
        (base.valid = true → v ≠ base.value → (v - base.value).toNat ≤ s.settings.inUse.maxDelta.toNat →
          (openSlot s = none → u.unbilled = s.unbilled + (v - base.value) ∧ u.bills = s.bills ∧
            u.notices.flags[(8 : Fin 13)] = true ∧ u.notices.subjects[(8 : Fin 13)] = subjectSpout sp) ∧
          ∀ (i : Fin 8) (b : Bill), openSlot s = some i → s.bills[i] = some b → u.unbilled = s.unbilled ∧
            ∃ b' : Bill, u.bills[i] = some b' ∧ b'.number = b.number ∧ b'.state = .opened ∧
              b'.total = b.total + (v - base.value) ∧
              (∀ h : Hold, currentHold s sp = some h → b'.unplaced = b.unplaced ∧
                ∀ k : Hold, b'.holds[k] = if k = h then b.holds[h] + (v - base.value) else b.holds[k]) ∧
              (currentHold s sp = none → b'.unplaced = b.unplaced + (v - base.value) ∧ b'.holds = b.holds ∧
                u.notices.flags[(8 : Fin 13)] = true ∧ u.notices.subjects[(8 : Fin 13)] = subjectSpout sp))

/-- A plausible delta is first credited to the spout's account step, at most up to 4294967295, and then placed; a COUNT step,
WAITING or pouring, that thereby reaches its effective target becomes DONE, a finished one keeps its state, and on an ACTIVE step
the top-off test runs: it sets the flag, and where the cap falls posts a reduce order. A reduce order is posted for an ACTIVE step
where the gate's intended setting, that of a waiting order, of a CHANGING record or of a known gate, is above the new cap. The
arbiter runs once, at the event's end (logs 12 and 26). -/
def Obligations.DeltaCreditsAccountStep : Prop :=
  (∀ (s : State) (c : Instr) (t : Transaction) (sp : Spout) (v : Word32),
    let d := v - (s.baselines.get sp).value
    let answer := some (0 :: (bytes32 v ++ [0]))
    Ends s t c answer → t.work = .poll (.scale sp) → (s.baselines.get sp).valid = true →
    d ≠ 0 → d.toNat ≤ s.settings.inUse.maxDelta.toNat →
    let x := creditStep sp d ((lineFreed answer s).withBaselines (s.baselines.set sp { value := v, valid := true }))
    exec c s = .next (arbitrate (if x.2 then activationTest (placeDelta sp d x.1) else placeDelta sp d x.1))) ∧
  (∀ (s : State) (sp : Spout) (d : Word32),
    ((∀ n r, s.account.get sp = some n → findStep s n ≠ some r) → creditStep sp d s = (s, false)) ∧
    ∀ n r, s.account.get sp = some n → findStep s n = some r →
      let credited := fun w : Word32 => BitVec.ofNat 32 (min 4294967295 (w.toNat + d.toNat))
      let t := s.withPlan (planWith n (fun x => { x with poured := credited x.poured }) s)
      let q := { r with poured := credited r.poured }
      let fills := (r.state = .waiting ∨ r.state = .active ∨ r.state = .held) ∧ Filled q
      (fills → creditStep sp d s = (stepEnded q .done t, true)) ∧
      (¬ fills → r.state = .active → creditStep sp d s = (topOff n t, false)) ∧
      (¬ fills → r.state ≠ .active → creditStep sp d s = (t, false)) ∧
      (findStep t n = some q ∧ ∀ m, m ≠ n → findStep t m = findStep s m)) ∧
  (∀ (s : State) (n : Word16),
    (findStep s n = none → topOff n s = s) ∧
    ∀ r, findStep s n = some r →
      let due := r.mode = .count ∧ r.topOffThreshold ≠ 0 ∧ r.inTopOff = false ∧ r.state = .active ∧
        r.effTarget ≤ r.poured.toNat + r.topOffThreshold.toNat
      let t := s.withPlan (planWith n (fun x => { x with inTopOff := true }) s)
      let cap := capNumber s { r with inTopOff := true }
      (¬ due → topOff n s = s) ∧
      (due → capNumber s r ≤ cap → topOff n s = t) ∧
      (due → cap < capNumber s r → ∃ x : Setting, x.val = cap ∧ topOff n s = reduceTo r.spout x t)) ∧
  ∀ (s : State) (sp : Spout) (x : Setting),
    (∀ r y, activeStep s sp = some r → intended s sp = some y → x.val < y.val →
      reduceTo sp x s = s.withOrders (withGateOrder s sp x s.orders)) ∧
    ((∀ r y, activeStep s sp = some r → intended s sp = some y → ¬ x.val < y.val) → reduceTo sp x s = s) ∧
    (∀ y, gateWaiting s sp = some y → intended s sp = some y) ∧
    (gateWaiting s sp = none →
      (∀ y b, (s.gates.get sp).state = .changing y b → intended s sp = some y) ∧
      ((s.gates.get sp).state = .rest .unsure → intended s sp = none) ∧
      ((s.gates.get sp).state = .rest .closed ∨ (s.gates.get sp).state = .rest .opened →
        intended s sp = some (s.gates.get sp).confirmed))

/-! ## Timers and the clock -/

/-- The timers reload the period in use at each expiry and make their polls due; that a stopped timer's expiry changes nothing is
the model's choice (log 3). The cycle timer starts a cycle, or sets the overrun latch and DUST_OVERRUN. SET_CLOCK and the minute.
The arbiter runs once, at an expiry's end (logs 12 and 26). -/
def Obligations.TimersAndClock : Prop :=
  (∀ s : State, (s.timers.position = none → exec .positionTimerExpiry s = .next s) ∧
    (s.timers.position ≠ none → ∃ polls, exec .positionTimerExpiry s = .next (arbitrate ((s.withTimers
        { s.timers with position := some s.settings.inUse.positionPeriod.toNat }).withPolls polls)) ∧
      (∀ p ∈ s.polls, p ∈ polls) ∧
      (∀ p ∈ polls, p ∈ s.polls ∨ ∃ sp, fitted s sp = true ∧ p.kind = .position sp ∧
        stationOf s .spoutDrive sp = some p.station) ∧
      ∀ sp st, fitted s sp = true → stationOf s .spoutDrive sp = some st →
        pollOnLine s st = true ∨ ∃ p ∈ polls, p.station = st)) ∧
  (∀ s : State, (s.timers.scale = none → exec .scaleTimerExpiry s = .next s) ∧
    (s.timers.scale ≠ none → ∃ polls, exec .scaleTimerExpiry s = .next (arbitrate ((s.withTimers
        { s.timers with scale := some s.settings.inUse.scalePeriod.toNat }).withPolls polls)) ∧
      (∀ p ∈ s.polls, p ∈ polls) ∧
      (∀ p ∈ polls, p ∈ s.polls ∨ ∃ sp, fitted s sp = true ∧ p.kind = .scale sp ∧
        stationOf s .beltScale sp = some p.station) ∧
      ∀ sp st, fitted s sp = true → stationOf s .beltScale sp = some st →
        pollOnLine s st = true ∨ ∃ p ∈ polls, p.station = st)) ∧
  (∀ s : State, (s.cycle.timer = none → exec .cycleTimerExpiry s = .next s) ∧
    (s.cycle.timer ≠ none → s.cycle.state = .cycling → ∀ i, s.cycle.pendingHead = some i →
      exec .cycleTimerExpiry s = .next (arbitrate (setNotice .dustOverrun (BitVec.ofNat 16 i.val) (s.withCycle
        { s.cycle with timer := some s.settings.inUse.cyclePeriod.toNat, overrun := true })))) ∧
    (s.cycle.timer ≠ none → s.cycle.state = .idle → ∃ u : State, exec .cycleTimerExpiry s = .next (arbitrate u) ∧
      u.cycle.timer = some s.settings.inUse.cyclePeriod.toNat ∧ u.cycle.overrun = false ∧
      (∀ i : HeadIx, u.heads[i] = { s.heads[i] with sampled := false }) ∧
      ((∀ i : HeadIx, (s.heads[i]).present = false) → u.cycle.state = .idle ∧ u.cycle.pendingHead = none) ∧
      (∀ i : HeadIx, (s.heads[i]).present = true → (∀ j : HeadIx, j < i → (s.heads[j]).present = false) →
        u.cycle.state = .cycling ∧ u.cycle.pendingHead = some i) ∧
      u.notices = s.notices ∧ u.orders = s.orders ∧ u.sport = s.sport ∧ u.spouts = s.spouts)) ∧
  (∀ s : State, exec .clockMinute s = .next (s.withClock { minutes := s.clock.minutes + 1, ticks := 0 })) ∧
  ∀ (tag : Byte) (minutes : Word32) (s : State), Taken s →
    exec (.setClock tag minutes) s = .next (replyTo tag .done [] (s.withClock { minutes, ticks := 0 }))

/-! ## The pour block -/

/-- A pour block begins: the close order, the QUEUED GATE entries above 0 answered POUR_BLOCKED with the cause, oldest first
(but at cause HALT), and the ACTIVE step held. Blocked before, or with no cause, the evaluation changes nothing. -/
def Obligations.PourBlockBegins : Prop :=
  ∀ (s : State) (sp : Spout),
    evaluateBlock true sp s = s ∧
    (blockCause s sp = 0 → evaluateBlock false sp s = s) ∧
    (blockCause s sp ≠ 0 →
      let t := evaluateBlock false sp s
      let hit := fun e : RelayEntry => !e.onLine && isGateAboveZero sp e
      t.orders = closedOrders sp s ∧
      (∀ r, activeStep s sp = some r → t.plan = planWith r.number (fun q => { q with state := .held }) s) ∧
      (activeStep s sp = none → t.plan = s.plan) ∧
      (blockCause s sp ≠ 4 → t.sport.ready = s.sport.ready ++ (s.relayQueue.filter hit).map
          (fun e => refusalAnswer e.tag .pourBlocked (blockCause s sp) e.body.kindByte) ∧
        (∀ e ∈ t.relayQueue, e ∈ s.relayQueue ∧ hit e = false)) ∧
      (blockCause s sp = 4 → t.sport = s.sport ∧ t.relayQueue = s.relayQueue) ∧
      t.spouts = s.spouts ∧ t.gates = s.gates ∧ t.notices = s.notices ∧ t.runc = s.runc ∧ t.line = s.line)

/-! ## The plan -/

/-- APPEND_STEP: its three checks in order, and the record it adds at the tail, with the next step number that names no
record; the counter moves past it. The activation test follows, the REPLY is last, and the arbiter runs once at the event's end
(logs 12 and 26). The activation test, which every event that changes its conditions ends with: each fitted spout's running step,
A first, and again while a step became DONE. A WAITING step that is filled becomes DONE (log 11); one whose conditions 1 to 5 hold
becomes ACTIVE and its spout's account step; a HELD step becomes ACTIVE again where the conditions but the after-link hold; then
the top-off test runs and an AUTO step posts its open order at the cap. A HELD step whose spout left its hold becomes WAITING. -/
def Obligations.AppendStep : Prop :=
  (∀ (tag : Byte) (f : StepFields) (s : State), Taken s →
    let good := f.spout.toNat ≤ 1 ∧ (1 ≤ f.hold.toNat ∧ f.hold.toNat ≤ 9) ∧ f.mode.toNat ≤ 1 ∧ f.openBy.toNat ≤ 1 ∧
      (1 ≤ f.gateSetting.toNat ∧ f.gateSetting.toNat ≤ 31) ∧
      (f.mode = 0 → f.topOffThreshold ≠ 0 → 1 ≤ f.topOffSetting.toNat ∧ f.topOffSetting.toNat ≤ 31)
    (¬ good → exec (.appendStep tag f) s = .next (arbitrate (replyTo tag .badValue [] s))) ∧
    (good → f.after ≠ 0 → f.after ∉ numbers s →
      exec (.appendStep tag f) s = .next (arbitrate (replyTo tag .noSuchStep [] s))) ∧
    (good → (f.after = 0 ∨ f.after ∈ numbers s) → 32 ≤ s.plan.length →
      exec (.appendStep tag f) s = .next (arbitrate (replyTo tag .planFull [] s))) ∧
    (good → (f.after = 0 ∨ f.after ∈ numbers s) → s.plan.length < 32 →
      ∃ r : StepRec, exec (.appendStep tag f) s = .next (arbitrate (testedReply tag .done (bytes16 r.number)
          (((heard s).withPlan (s.plan ++ [r])).withStepCounter (if r.number = 0xFFFF then 1 else r.number + 1)))) ∧
        (s.stepCounter ∉ numbers s → r.number = s.stepCounter) ∧
        (s.stepCounter ≠ 0 → r.number ∉ numbers s ∧ r.number ≠ 0) ∧
        r.kind = .plan ∧ r.spout.byte = f.spout ∧ holdByte r.hold = f.hold ∧ r.mode.byte = f.mode ∧
        r.target = (if f.mode = 0 then f.target else 0) ∧ settingByte r.gateSetting = f.gateSetting ∧
        r.topOffThreshold = (if f.mode = 0 then f.topOffThreshold else 0) ∧
        settingByte r.topOffSetting = (if f.mode = 0 ∧ f.topOffThreshold ≠ 0 then f.topOffSetting else 0) ∧
        r.openBy.byte = f.openBy ∧ r.after = (if f.after = 0 then none else some f.after) ∧ r.poured = 0 ∧
        r.inTopOff = false ∧ r.state = .waiting)) ∧
  (∀ (s : State) (sp : Spout),
    (runningStep s sp = none → testSpout sp s = (s, false)) ∧
    ∀ r, runningStep s sp = some r →
      let active := s.withPlan (planWith r.number (fun q => { q with state := .active }) s)
      (r.state = .waiting → Filled r → testSpout sp s = (stepEnded r .done s, true)) ∧
      (r.state = .waiting → ¬ Filled r → PourAllowed s r → LinkSatisfied s r →
        testSpout sp s = (poursNow r (active.withAccount (s.account.set r.spout (some r.number))), false)) ∧
      (r.state = .waiting → ¬ Filled r → ¬ (PourAllowed s r ∧ LinkSatisfied s r) → testSpout sp s = (s, false)) ∧
      (r.state = .held → PourAllowed s r → testSpout sp s = (poursNow r active, false)) ∧
      (r.state = .held → ¬ PourAllowed s r → testSpout sp s = (s, false)) ∧
      (r.state = .active → testSpout sp s = (s, false))) ∧
  (∀ (s : State) (r : StepRec),
    let t := topOff r.number s
    (r.openBy = .supervisor → poursNow r s = t) ∧
    (r.openBy = .auto → pouringStep t r.spout = none → poursNow r s = t) ∧
    ∀ q, r.openBy = .auto → pouringStep t r.spout = some q →
      ∃ x : Setting, x.val = capNumber t q ∧ poursNow r s = t.withOrders (withGateOrder t r.spout x t.orders)) ∧
  (∀ s : State, PlanGood s → Rounds s (activationTest s)) ∧
  (∀ s : State, ∃ t : State, activationTest s =
    { s with
      orders := t.orders, plan := t.plan, stepCounter := t.stepCounter, account := t.account, stack := t.stack
      bills := t.bills, notices := t.notices }) ∧
  ∀ (s : State) (sp : Spout),
    (∀ r, pouringStep s sp = some r → r.state = .held → currentHold s sp ≠ some r.hold →
      leaveHold sp s = s.withPlan (planWith r.number (fun q => { q with state := .waiting }) s)) ∧
    ((∀ r, pouringStep s sp = some r → r.state = .held → currentHold s sp = some r.hold) → leaveHold sp s = s)

/-- CANCEL_STEP and END_STEP: their refusals; and on a step that is not turned away its end, CANCELLED or DONE, then the
activation test and the REPLY, with one arbiter run at the event's end (logs 12 and 26). Of a PLAN step: the record, the close of
an ACTIVE step's gate, at DONE the notice and the OPEN bill's count. Of a TRIM step the same, and then the pops: the entry leaves
the stack, the suspended step is WAITING, or DONE where it is filled, which pops on where it is a TRIM step. The levels that the
pops freed are offered to the latches, the private level first. The service of a latch: discarded over a full plan, the push of
the running step, or the TRIM step at the tail. -/
def Obligations.CancelAndEndStep : Prop :=
  (∀ (tag : Byte) (n : Word16) (s : State), Taken s →
    (n ∉ numbers s → exec (.cancelStep tag n) s = .next (arbitrate (replyTo tag .noSuchStep [] s)) ∧
      exec (.endStep tag n) s = .next (arbitrate (replyTo tag .noSuchStep [] s))) ∧
    ∀ r : StepRec, findStep s n = some r →
      (r.state = .suspended → exec (.cancelStep tag n) s = .next (arbitrate (replyTo tag .stepSuspended [] s))) ∧
      ((r.state = .done ∨ r.state = .cancelled) →
        exec (.cancelStep tag n) s = .next (arbitrate (replyTo tag .stepEnded [] s))) ∧
      (r.state ≠ .active → r.state ≠ .held →
        exec (.endStep tag n) s = .next (arbitrate (replyTo tag .notActive [] s))) ∧
      ((r.state = .waiting ∨ r.state = .active ∨ r.state = .held) → exec (.cancelStep tag n) s
        = .next (arbitrate (testedReply tag .done [] (stepEnded r .cancelled (heard s))))) ∧
      ((r.state = .active ∨ r.state = .held) → exec (.endStep tag n) s
        = .next (arbitrate (testedReply tag .done [] (stepEnded r .done (heard s)))))) ∧
  (∀ (s : State) (r : StepRec),
    let orders := if r.state = .active then closedOrders r.spout s else s.orders
    let v := stepEnded r .done s
    r.kind = .plan →
      stepEnded r .cancelled s
        = (s.withPlan (planWith r.number (fun q => { q with state := .cancelled }) s)).withOrders orders ∧
      v.plan = planWith r.number (fun q => { q with state := .done }) s ∧ v.orders = orders ∧
      v.notices.flags[(9 : Fin 13)] = true ∧ v.notices.subjects[(9 : Fin 13)] = r.number ∧
      (openSlot s = none → v.bills = s.bills) ∧
      (∀ i b, openSlot s = some i → s.bills[i] = some b →
        v.bills = s.bills.set i.val (some { b with steps := satInc b.steps })) ∧
      v.account = s.account ∧ v.stack = s.stack ∧ v.sport = s.sport ∧ v.gates = s.gates ∧ v.spouts = s.spouts ∧
      v.unbilled = s.unbilled) ∧
  (∀ (s : State) (sp : Spout) (n : Word16), (s.stack.levels.get sp).length ≤ 3 →
    ∃ p : State, Pops sp n s p ∧
      let v := if (p.stack.levels.get sp).length < (s.stack.levels.get sp).length then serveLatch sp p else p
      trimEnded sp n s = if s.stack.shared ≠ .empty ∧ p.stack.shared = .empty then serveShared v else v) ∧
  (∀ (s : State) (sp : Spout),
    (s.stack.latches.get sp = none → serveLatch sp s = s) ∧
    ∀ req, s.stack.latches.get sp = some req →
      let n := nextNumber s
      let x : StepRec :=
        { number := n, kind := .trim, spout := sp, hold := req.hold, mode := .count, target := req.target,
          gateSetting := req.gateSetting, topOffThreshold := 0, topOffSetting := 0, openBy := req.openBy, after := none,
          poured := 0, inTopOff := false, state := .waiting }
      let tail := (s.withPlan (s.plan ++ [x])).withStepCounter (if n = 0xFFFF then 1 else n + 1)
      (s.stepCounter ∉ numbers s → n = s.stepCounter) ∧ trimRecord sp req n = x ∧
      (32 ≤ s.plan.length → serveLatch sp s = setNotice .trimTaken 0 (s.withStack (latchCleared sp s.stack))) ∧
      (s.plan.length < 32 → runningStep s sp = none →
        serveLatch sp s = setNotice .trimTaken n (tail.withStack (latchCleared sp s.stack))) ∧
      ∀ r, s.plan.length < 32 → runningStep s sp = some r → serveLatch sp s = setNotice .trimTaken n
          ((trimPushed sp r req s).withStack (latchCleared sp (trimPushed sp r req s).stack)) ∧
        ∀ before after : List StepRec, s.plan = before ++ r :: after → (∀ q ∈ before, q.number ≠ r.number) →
          let aside := fun l => planWith r.number (fun q => { q with state := .suspended }) (s.withPlan l)
          (trimPushed sp r req s).plan = aside before ++ x :: aside (r :: after)) ∧
  ∀ s : State,
    (s.stack.shared ≠ .empty ∨ s.stack.older = none → serveShared s = s) ∧
    ∀ sp, s.stack.shared = .empty → s.stack.older = some sp → serveShared s
      = if (serveLatch sp s).stack.shared = .empty then serveLatch (otherSpout sp) (serveLatch sp s) else serveLatch sp s

/-- PURGE_STEPS removes the finished records and every reference to them and counts them; READ_STEP shows a record byte by
byte and changes nothing. After PURGE_STEPS the arbiter runs once, when the REPLY is ready (logs 12 and 26). -/
def Obligations.PurgeAndReadStep : Prop :=
  (∀ (tag : Byte) (s : State), Taken s →
    let ended := fun r : StepRec => r.state == .done || r.state == .cancelled
    let gone := fun n : Word16 => ∃ r ∈ s.plan, ended r = true ∧ r.number = n
    ∃ (plan : List StepRec) (account : Pair (Option Word16)),
      exec (.purgeSteps tag) s = .next (arbitrate (testedReply tag .done [byteOfNat (s.plan.countP ended)]
        (((heard s).withPlan plan).withAccount account))) ∧
      List.Forall₂ (fun r q : StepRec => q = { r with after := q.after } ∧ (r.after = none → q.after = none) ∧
        ∀ n, r.after = some n → (gone n → q.after = none) ∧ (¬ gone n → q.after = some n))
        (s.plan.filter fun r => !ended r) plan ∧
      ∀ sp, (s.account.get sp = none → account.get sp = none) ∧
        ∀ n, s.account.get sp = some n →
          (gone n → account.get sp = none) ∧ (¬ gone n → account.get sp = some n)) ∧
  ∀ (tag : Byte) (n : Word16) (s : State), Taken s →
    (n ∉ numbers s → exec (.readStep tag n) s = .next (replyTo tag .noSuchStep [] s)) ∧
    ∀ r : StepRec, findStep s n = some r → ∃ position : Nat,
      (s.plan[position]? = some r ∧ ∀ k, k < position → (s.plan[k]?).map (·.number) ≠ some n) ∧
      exec (.readStep tag n) s = .next (replyTo tag .done
        (bytes16 n ++ [r.kind.byte, r.spout.byte, holdByte r.hold, r.mode.byte] ++ bytes16 r.target
          ++ [settingByte r.gateSetting] ++ bytes16 r.topOffThreshold ++ [settingByte r.topOffSetting, r.openBy.byte]
          ++ bytes16 (r.after.getD 0) ++ bytes32 r.poured
          ++ [yesNo r.inTopOff, r.state.byte, byteOfNat position,
              yesNo (decide ((runningStep s r.spout).map (·.number) = some n)),
              yesNo (decide (s.account.get r.spout = some n))]) s)

/-- READ_PLAN: BAD_VALUE above position 31; END with the count of records at or past the end; else DONE with the count and
the number and state of at most 15 records from the position on. It changes nothing. -/
def Obligations.ReadPlan : Prop :=
  ∀ (tag start : Byte) (s : State), Taken s →
    exec (.readPlan tag start) s = .next
      (if 31 < start.toNat then replyTo tag .badValue [] s
      else if s.plan.length ≤ start.toNat then replyTo tag .endMark [byteOfNat s.plan.length] s
      else replyTo tag .done (byteOfNat s.plan.length ::
        ((s.plan.drop start.toNat).take 15).flatMap fun r => bytes16 r.number ++ [r.state.byte]) s)

/-- TRIM_POUR: BAD_VALUE, PLAN_FULL, the TRIM step at the tail where the spout has no running step, the push of the running
step where a level is free, LATCHED where none is and the latch is clear, and TRIM_LATCHED. The arbiter runs once, when the REPLY
is ready (logs 12 and 26). -/
def Obligations.TrimPour : Prop :=
  ∀ (tag : Byte) (f : TrimFields) (s : State), Taken s → PlanGood s →
    let good := f.spout.toNat ≤ 1 ∧ (1 ≤ f.hold.toNat ∧ f.hold.toNat ≤ 9) ∧
      (1 ≤ f.gateSetting.toNat ∧ f.gateSetting.toNat ≤ 31) ∧ f.openBy.toNat ≤ 1
    (¬ good → exec (.trimPour tag f) s = .next (arbitrate (replyTo tag .badValue [] s))) ∧
    (good → 32 ≤ s.plan.length → exec (.trimPour tag f) s = .next (arbitrate (replyTo tag .planFull [] s))) ∧
    (good → s.plan.length < 32 → ∃ (sp : Spout) (req : TrimRequest) (x : StepRec),
      (sp.byte = f.spout ∧ holdByte req.hold = f.hold ∧ req.target = f.target ∧
        settingByte req.gateSetting = f.gateSetting ∧ req.openBy.byte = f.openBy) ∧
      (x = { number := x.number, kind := .trim, spout := sp, hold := req.hold, mode := .count, target := req.target,
             gateSetting := req.gateSetting, topOffThreshold := 0, topOffSetting := 0, openBy := req.openBy,
             after := none, poured := 0, inTopOff := false, state := .waiting }) ∧
      (s.stepCounter ∉ numbers s → x.number = s.stepCounter) ∧ x.number ∉ numbers s ∧ x.number ≠ 0 ∧
      let counted := (heard s).withStepCounter (if x.number = 0xFFFF then 1 else x.number + 1)
      (runningStep s sp = none → exec (.trimPour tag f) s = .next (arbitrate (testedReply tag .done
        (bytes16 x.number ++ bytes16 0) (counted.withPlan (s.plan ++ [x]))))) ∧
      ∀ r, runningStep s sp = some r →
        (((s.stack.levels.get sp).length < 3 ∨ s.stack.shared = .empty) →
          ∃ before after : List StepRec, s.plan = before ++ r :: after ∧
            (∀ q ∈ before, q.number ≠ r.number) ∧
            exec (.trimPour tag f) s = .next (arbitrate (testedReply tag .done (bytes16 x.number ++ bytes16 r.number)
              (((counted.withPlan (planWith r.number (fun q => { q with state := .suspended })
                    (s.withPlan before) ++ x :: planWith r.number (fun q => { q with state := .suspended })
                    (s.withPlan (r :: after)))).withOrders
                (if r.state = .active then closedOrders r.spout s else s.orders)).withStack
                (let e : StackEntry := { suspended := r.number, trim := x.number }
                if (s.stack.levels.get sp).length < 3 then
                  { s.stack with levels := s.stack.levels.set sp (e :: s.stack.levels.get sp) }
                else { s.stack with shared := .entry sp e }))))) ∧
        (3 ≤ (s.stack.levels.get sp).length → s.stack.shared ≠ .empty →
          (s.stack.latches.get sp = none → exec (.trimPour tag f) s = .next (arbitrate (replyTo tag .latched []
            (s.withStack { s.stack with
              latches := s.stack.latches.set sp (some req),
              older := if (s.stack.latches.get (otherSpout sp)).isSome then s.stack.older else some sp })))) ∧
          (s.stack.latches.get sp ≠ none →
            exec (.trimPour tag f) s = .next (arbitrate (replyTo tag .trimLatched [] s)))))

/-! ## Bills -/

/-- OPEN_BILL, CLOSE_BILL and CLEAR_UNBILLED: the checks in order; the slot a new record takes, the lowest empty one or else
the earliest closed ISSUED one the cursor does not name; the closing with the cursor's rewinding; the total returned. -/
def Obligations.OpenCloseAndUnbilled : Prop :=
  (∀ (tag : Byte) (n : Word16) (s : State), Taken s →
    let carried := ∃ (i : Fin 8) (b : Bill), s.bills[i] = some b ∧ b.number = n
    let isOpen := ∃ (i : Fin 8) (b : Bill), s.bills[i] = some b ∧ b.state = .opened
    let old := fun (i : Fin 8) (b : Bill) => s.bills[i] = some b ∧ b.state = .issued ∧
      ∀ item, s.stack.shared ≠ .cursor b.number item
    (isOpen → exec (.openBill tag n) s = .next (replyTo tag .billOpen [] s)) ∧
    (¬ isOpen → n = 0 → exec (.openBill tag n) s = .next (replyTo tag .badValue [] s)) ∧
    (¬ isOpen → n ≠ 0 → carried → exec (.openBill tag n) s = .next (replyTo tag .dupBill [] s)) ∧
    (¬ isOpen → n ≠ 0 → ¬ carried → (∀ i : Fin 8, s.bills[i] ≠ none) → (∀ i b, ¬ old i b) →
      exec (.openBill tag n) s = .next (replyTo tag .billTableFull [] s)) ∧
    (¬ isOpen → n ≠ 0 → ¬ carried → ∀ i : Fin 8,
      ((s.bills[i] = none ∧ ∀ j : Fin 8, j < i → s.bills[j] ≠ none) ∨
        ((∀ j : Fin 8, s.bills[j] ≠ none) ∧ ∃ b, old i b ∧ ∀ j c, old j c →
          b.closedAt.toNat < c.closedAt.toNat ∨ (b.closedAt = c.closedAt ∧ i ≤ j))) →
      exec (.openBill tag n) s = .next (replyTo tag .done [byteOfNat i.val] (s.withBills (s.bills.set i.val (some
        { number := n, state := .opened, openedAt := s.clock.minutes, closedAt := 0, gaps := 0, steps := 0,
          holds := Vector.replicate 9 0, unplaced := 0, total := 0, readThrough := false })))))) ∧
  (∀ (tag : Byte) (s : State), Taken s →
    (openSlot s = none → exec (.closeBill tag) s = .next (replyTo tag .noBill [] s)) ∧
    ∀ (i : Fin 8) (b : Bill), openSlot s = some i → s.bills[i] = some b →
      ((s.gates.get .a).state ≠ .rest .closed →
        exec (.closeBill tag) s = .next (replyTo tag .gatesNotClosed [0] s)) ∧
      ((s.gates.get .a).state = .rest .closed → fitted s .b = true → (s.gates.get .b).state ≠ .rest .closed →
        exec (.closeBill tag) s = .next (replyTo tag .gatesNotClosed [1] s)) ∧
      ((s.gates.get .a).state = .rest .closed → (fitted s .b = true → (s.gates.get .b).state = .rest .closed) →
        ∃ shared : Shared, exec (.closeBill tag) s = .next (replyTo tag .done (bytes16 b.number ++ bytes32 b.total)
            ((s.withBills (s.bills.set i.val (some
              { b with closedAt := s.clock.minutes, state := .closed, readThrough := false }))).withStack
              { s.stack with shared })) ∧
          (∀ item, s.stack.shared = .cursor b.number item → shared = .cursor b.number 0) ∧
          ((∀ item, s.stack.shared ≠ .cursor b.number item) → shared = s.stack.shared))) ∧
  ∀ (tag : Byte) (s : State), Taken s →
    exec (.clearUnbilled tag) s = .next (replyTo tag .done (bytes32 s.unbilled) (s.withUnbilled 0))

/-- The bill readout: opening the cursor, its thirteen items and END, which marks a CLOSED record read through, and closing
it, which empties the shared level and offers it to the latches, and where none waits changes nothing else before the activation
test. The arbiter runs once, when the REPLY to READ_BILL_END is ready (logs 12 and 26). -/
def Obligations.BillReadout : Prop :=
  (∀ (tag : Byte) (n : Word16) (s : State), Taken s →
    let carried := ∃ (i : Fin 8) (b : Bill), s.bills[i] = some b ∧ b.number = n
    (¬ carried → exec (.readBillOpen tag n) s = .next (replyTo tag .noBill [] s)) ∧
    (carried → s.stack.shared ≠ .empty → exec (.readBillOpen tag n) s = .next (replyTo tag .cursorBusy [] s)) ∧
    (carried → s.stack.shared = .empty → exec (.readBillOpen tag n) s
      = .next (replyTo tag .done [] (s.withStack { s.stack with shared := .cursor n 0 })))) ∧
  (∀ (tag : Byte) (s : State), Taken s → (∀ n item, s.stack.shared ≠ .cursor n item) →
    exec (.readBillNext tag) s = .next (replyTo tag .noCursor [] s) ∧
    exec (.readBillEnd tag) s = .next (arbitrate (replyTo tag .noCursor [] s))) ∧
  (∀ (tag : Byte) (s : State) (n : Word16) (item : Nat) (i : Fin 8) (b : Bill), Taken s → BillsGood s →
    s.stack.shared = .cursor n item → s.bills[i] = some b → b.number = n →
    (item ≤ 12 → ∃ data : List Byte, exec (.readBillNext tag) s = .next (replyTo tag .done
        (byteOfNat item :: data) (s.withStack { s.stack with shared := .cursor n (item + 1) })) ∧
      (item = 0 → data = bytes16 b.number ++ [b.state.byte] ++ bytes32 b.openedAt ++ bytes32 b.closedAt
        ++ [yesNo b.readThrough, byteOfNat i.val]) ∧
      (∀ h : Hold, item = h.val + 1 → data = byteOfNat item :: bytes32 b.holds[h]) ∧
      (item = 10 → data = bytes32 b.unplaced) ∧ (item = 11 → data = bytes32 b.total) ∧
      (item = 12 → data = bytes16 b.gaps ++ bytes16 b.steps)) ∧
    (13 ≤ item → b.state = .closed → exec (.readBillNext tag) s = .next (replyTo tag .endMark []
      (s.withBills (s.bills.set i.val (some { b with readThrough := true }))))) ∧
    (13 ≤ item → b.state ≠ .closed → exec (.readBillNext tag) s = .next (replyTo tag .endMark [] s))) ∧
  ∀ (tag : Byte) (s : State) (n : Word16) (item : Nat), Taken s → s.stack.shared = .cursor n item →
    exec (.readBillEnd tag) s = .next (arbitrate (testedReply tag .done []
      (serveShared ((heard s).withStack { s.stack with shared := .empty })))) ∧
    (s.stack.older = none → exec (.readBillEnd tag) s = .next (arbitrate (testedReply tag .done []
      ((heard s).withStack { s.stack with shared := .empty })))) ∧
    ∀ sp req, s.stack.older = some sp → s.stack.latches.get sp = some req →
      s.stack.latches.get (otherSpout sp) = none → 32 ≤ s.plan.length →
      exec (.readBillEnd tag) s = .next (arbitrate (testedReply tag .done [] (setNotice .trimTaken 0
        ((heard s).withStack { s.stack with
          shared := .empty, latches := s.stack.latches.set sp none, older := none }))))

/-- ISSUE_BILL: NO_BILL; NOT_READ unless the record is CLOSED and read through; else only its state changes, to ISSUED, and
the REPLY gives its number and total. -/
def Obligations.IssueBill : Prop :=
  ∀ (tag : Byte) (n : Word16) (s : State), Taken s → BillsGood s →
    ((∀ (i : Fin 8) (b : Bill), s.bills[i] = some b → b.number ≠ n) →
      exec (.issueBill tag n) s = .next (replyTo tag .noBill [] s)) ∧
    ∀ (i : Fin 8) (b : Bill), s.bills[i] = some b → b.number = n →
      exec (.issueBill tag n) s = .next
        (if b.state = .closed ∧ b.readThrough = true then
          replyTo tag .done (bytes16 b.number ++ bytes32 b.total)
            (s.withBills (s.bills.set i.val (some { b with state := .issued })))
        else replyTo tag .notRead [] s)

/-! ## Notices -/

/-- NEXT_NOTICE returns the set flag of lowest number that is not masked, with its subject, and the flag becomes clear; with
none, nothing changes. CLEAR_NOTICES clears exactly the named flags, masked or not; SET_NOTICE_MASK replaces the mask and
changes no flag; a set that names a number outside 1..13 is BAD_VALUE and changes nothing. -/
def Obligations.NoticeRequests : Prop :=
  (∀ (tag : Byte) (s : State), Taken s →
    ((∀ n : Fin 13, s.notices.flags[n] = true → s.notices.mask[n] = true) →
      exec (.nextNotice tag) s = .next (replyTo tag .none [] s)) ∧
    ∀ n : Fin 13, s.notices.flags[n] = true → s.notices.mask[n] = false →
      (∀ k : Fin 13, k < n → s.notices.flags[k] = true → s.notices.mask[k] = true) →
      exec (.nextNotice tag) s = .next (replyTo tag .done (byteOfNat (n.val + 1) :: bytes16 s.notices.subjects[n])
        (s.withNotices { s.notices with flags := s.notices.flags.set n.val false }))) ∧
  ∀ (tag : Byte) (names : Word16) (s : State), Taken s →
    let outside := names.getLsbD 0 = true ∨ names.getLsbD 14 = true ∨ names.getLsbD 15 = true
    (outside → exec (.clearNotices tag names) s = .next (replyTo tag .badValue [] s) ∧
      exec (.setNoticeMask tag names) s = .next (replyTo tag .badValue [] s)) ∧
    (¬ outside →
      (∃ v : Vector Bool 13, exec (.clearNotices tag names) s
          = .next (replyTo tag .done [] (s.withNotices { s.notices with flags := v })) ∧
        ∀ n : Fin 13, v[n] = (s.notices.flags[n] && !names.getLsbD (n.val + 1))) ∧
      ∃ v : Vector Bool 13, exec (.setNoticeMask tag names) s
          = .next (replyTo tag .done [] (s.withNotices { s.notices with mask := v })) ∧
        ∀ n : Fin 13, v[n] = names.getLsbD (n.val + 1))

/-- No command but NEXT_NOTICE, CLEAR_NOTICES, a frame that carries one, a restart or power-on clears a set flag; and no
command but power-on changes the amounts, times or counts of a bill that is not OPEN, except that OPEN_BILL can put a new
record in its slot. -/
def Obligations.FlagsAndClosedBillsStay : Prop :=
  (∀ (c : Instr) (s t : State) (n : Fin 13), clearsNotices c = false → exec c s = .next t →
    s.notices.flags[n] = true → t.notices.flags[n] = true) ∧
  ∀ (c : Instr) (s t : State) (i : Fin 8) (b : Bill), (∀ x y, c ≠ .powerOn x y) → exec c s = .next t →
    s.bills[i] = some b → b.state ≠ .opened →
    ∃ b', t.bills[i] = some b' ∧
      ((b' = { b with state := b'.state, readThrough := b'.readThrough } ∧ b'.state ≠ .opened) ∨
        (b.state = .issued ∧ b'.state = .opened ∧ b'.total = 0))

/-! ## What every step keeps -/

/-- The properties that every step keeps hold after power-on. -/
def Obligations.PropertiesHoldAtReset : Prop :=
  KeyRule State.reset ∧ TablesGood State.reset ∧ HeadsGood State.reset ∧ PlacesGood State.reset ∧
    QueuesGood State.reset ∧ PlanGood State.reset ∧ BillsGood State.reset

/-- Every step keeps the key rule, the tables' ranges, zone entries, map entries and settings among them, and the heads' ranges,
with thresholds in order up to 4000 and the hysteresis up to 500. -/
def Obligations.TablesAndHeadsKept : Prop :=
  ∀ s t : State, step s = .next t →
    (KeyRule s → KeyRule t) ∧ (TablesGood s → TablesGood t) ∧ (HeadsGood s → HeadsGood t)

/-- Every step keeps the output places, the relay queue, the order queue and the poll set in form. -/
def Obligations.PlacesAndQueuesKept : Prop :=
  ∀ s t : State, step s = .next t → (PlacesGood s → PlacesGood t) ∧ (QueuesGood s → QueuesGood t)

/-- Every step keeps the plan's numbers and the bills' sums. -/
def Obligations.PlanAndBillsKept : Prop :=
  ∀ s t : State, step s = .next t → (PlanGood s → PlanGood t) ∧ (BillsGood s → BillsGood t)
end

