-- ==== Sys2Proof/Laws/State.lean ====
section
/-! SUPPORT. What each writer leaves, one lemma per writer with one clause per field (simp takes the clauses apart), and
the lemmas of a pair. -/

namespace Sys2Proof.Machine

variable (s : State)

@[simp] theorem State.withPending_fields (x : List Instr) :
    (s.withPending x).pending = x ∧ (s.withPending x).freeCount = s.freeCount ∧ (s.withPending x).pins = s.pins ∧
      (s.withPending x).sport = s.sport ∧ (s.withPending x).line = s.line ∧ (s.withPending x).orders = s.orders ∧
      (s.withPending x).polls = s.polls ∧ (s.withPending x).timers = s.timers ∧ (s.withPending x).settings =
      s.settings ∧ (s.withPending x).stations = s.stations ∧ (s.withPending x).relayQueue = s.relayQueue ∧
      (s.withPending x).zones = s.zones ∧ (s.withPending x).freeboard = s.freeboard ∧ (s.withPending x).console =
      s.console ∧ (s.withPending x).spouts = s.spouts ∧ (s.withPending x).heads = s.heads ∧ (s.withPending x).cycle
      = s.cycle ∧ (s.withPending x).holdDust = s.holdDust ∧ (s.withPending x).gates = s.gates ∧ (s.withPending
      x).plan = s.plan ∧ (s.withPending x).stepCounter = s.stepCounter ∧ (s.withPending x).account = s.account ∧
      (s.withPending x).stack = s.stack ∧ (s.withPending x).baselines = s.baselines ∧ (s.withPending x).bills =
      s.bills ∧ (s.withPending x).unbilled = s.unbilled ∧ (s.withPending x).clock = s.clock ∧ (s.withPending
      x).notices = s.notices ∧ (s.withPending x).runc = s.runc :=
  ⟨rfl, rfl, rfl, rfl, rfl, rfl, rfl, rfl, rfl, rfl, rfl, rfl, rfl, rfl, rfl, rfl, rfl, rfl, rfl, rfl, rfl, rfl, rfl, rfl, rfl, rfl, rfl, rfl, rfl⟩

@[simp] theorem State.withFreeCount_fields (x : Nat) :
    (s.withFreeCount x).pending = s.pending ∧ (s.withFreeCount x).freeCount = x ∧ (s.withFreeCount x).pins =
      s.pins ∧ (s.withFreeCount x).sport = s.sport ∧ (s.withFreeCount x).line = s.line ∧ (s.withFreeCount x).orders
      = s.orders ∧ (s.withFreeCount x).polls = s.polls ∧ (s.withFreeCount x).timers = s.timers ∧ (s.withFreeCount
      x).settings = s.settings ∧ (s.withFreeCount x).stations = s.stations ∧ (s.withFreeCount x).relayQueue =
      s.relayQueue ∧ (s.withFreeCount x).zones = s.zones ∧ (s.withFreeCount x).freeboard = s.freeboard ∧
      (s.withFreeCount x).console = s.console ∧ (s.withFreeCount x).spouts = s.spouts ∧ (s.withFreeCount x).heads =
      s.heads ∧ (s.withFreeCount x).cycle = s.cycle ∧ (s.withFreeCount x).holdDust = s.holdDust ∧ (s.withFreeCount
      x).gates = s.gates ∧ (s.withFreeCount x).plan = s.plan ∧ (s.withFreeCount x).stepCounter = s.stepCounter ∧
      (s.withFreeCount x).account = s.account ∧ (s.withFreeCount x).stack = s.stack ∧ (s.withFreeCount x).baselines
      = s.baselines ∧ (s.withFreeCount x).bills = s.bills ∧ (s.withFreeCount x).unbilled = s.unbilled ∧
      (s.withFreeCount x).clock = s.clock ∧ (s.withFreeCount x).notices = s.notices ∧ (s.withFreeCount x).runc =
      s.runc :=
  ⟨rfl, rfl, rfl, rfl, rfl, rfl, rfl, rfl, rfl, rfl, rfl, rfl, rfl, rfl, rfl, rfl, rfl, rfl, rfl, rfl, rfl, rfl, rfl, rfl, rfl, rfl, rfl, rfl, rfl⟩

@[simp] theorem State.withPins_fields (x : Pins) :
    (s.withPins x).pending = s.pending ∧ (s.withPins x).freeCount = s.freeCount ∧ (s.withPins x).pins = x ∧
      (s.withPins x).sport = s.sport ∧ (s.withPins x).line = s.line ∧ (s.withPins x).orders = s.orders ∧ (s.withPins
      x).polls = s.polls ∧ (s.withPins x).timers = s.timers ∧ (s.withPins x).settings = s.settings ∧ (s.withPins
      x).stations = s.stations ∧ (s.withPins x).relayQueue = s.relayQueue ∧ (s.withPins x).zones = s.zones ∧
      (s.withPins x).freeboard = s.freeboard ∧ (s.withPins x).console = s.console ∧ (s.withPins x).spouts = s.spouts
      ∧ (s.withPins x).heads = s.heads ∧ (s.withPins x).cycle = s.cycle ∧ (s.withPins x).holdDust = s.holdDust ∧
      (s.withPins x).gates = s.gates ∧ (s.withPins x).plan = s.plan ∧ (s.withPins x).stepCounter = s.stepCounter ∧
      (s.withPins x).account = s.account ∧ (s.withPins x).stack = s.stack ∧ (s.withPins x).baselines = s.baselines ∧
      (s.withPins x).bills = s.bills ∧ (s.withPins x).unbilled = s.unbilled ∧ (s.withPins x).clock = s.clock ∧
      (s.withPins x).notices = s.notices ∧ (s.withPins x).runc = s.runc :=
  ⟨rfl, rfl, rfl, rfl, rfl, rfl, rfl, rfl, rfl, rfl, rfl, rfl, rfl, rfl, rfl, rfl, rfl, rfl, rfl, rfl, rfl, rfl, rfl, rfl, rfl, rfl, rfl, rfl, rfl⟩

@[simp] theorem State.withSport_fields (x : Sport) :
    (s.withSport x).pending = s.pending ∧ (s.withSport x).freeCount = s.freeCount ∧ (s.withSport x).pins = s.pins
      ∧ (s.withSport x).sport = x ∧ (s.withSport x).line = s.line ∧ (s.withSport x).orders = s.orders ∧ (s.withSport
      x).polls = s.polls ∧ (s.withSport x).timers = s.timers ∧ (s.withSport x).settings = s.settings ∧ (s.withSport
      x).stations = s.stations ∧ (s.withSport x).relayQueue = s.relayQueue ∧ (s.withSport x).zones = s.zones ∧
      (s.withSport x).freeboard = s.freeboard ∧ (s.withSport x).console = s.console ∧ (s.withSport x).spouts =
      s.spouts ∧ (s.withSport x).heads = s.heads ∧ (s.withSport x).cycle = s.cycle ∧ (s.withSport x).holdDust =
      s.holdDust ∧ (s.withSport x).gates = s.gates ∧ (s.withSport x).plan = s.plan ∧ (s.withSport x).stepCounter =
      s.stepCounter ∧ (s.withSport x).account = s.account ∧ (s.withSport x).stack = s.stack ∧ (s.withSport
      x).baselines = s.baselines ∧ (s.withSport x).bills = s.bills ∧ (s.withSport x).unbilled = s.unbilled ∧
      (s.withSport x).clock = s.clock ∧ (s.withSport x).notices = s.notices ∧ (s.withSport x).runc = s.runc :=
  ⟨rfl, rfl, rfl, rfl, rfl, rfl, rfl, rfl, rfl, rfl, rfl, rfl, rfl, rfl, rfl, rfl, rfl, rfl, rfl, rfl, rfl, rfl, rfl, rfl, rfl, rfl, rfl, rfl, rfl⟩

@[simp] theorem State.withLine_fields (x : FieldLine) :
    (s.withLine x).pending = s.pending ∧ (s.withLine x).freeCount = s.freeCount ∧ (s.withLine x).pins = s.pins ∧
      (s.withLine x).sport = s.sport ∧ (s.withLine x).line = x ∧ (s.withLine x).orders = s.orders ∧ (s.withLine
      x).polls = s.polls ∧ (s.withLine x).timers = s.timers ∧ (s.withLine x).settings = s.settings ∧ (s.withLine
      x).stations = s.stations ∧ (s.withLine x).relayQueue = s.relayQueue ∧ (s.withLine x).zones = s.zones ∧
      (s.withLine x).freeboard = s.freeboard ∧ (s.withLine x).console = s.console ∧ (s.withLine x).spouts = s.spouts
      ∧ (s.withLine x).heads = s.heads ∧ (s.withLine x).cycle = s.cycle ∧ (s.withLine x).holdDust = s.holdDust ∧
      (s.withLine x).gates = s.gates ∧ (s.withLine x).plan = s.plan ∧ (s.withLine x).stepCounter = s.stepCounter ∧
      (s.withLine x).account = s.account ∧ (s.withLine x).stack = s.stack ∧ (s.withLine x).baselines = s.baselines ∧
      (s.withLine x).bills = s.bills ∧ (s.withLine x).unbilled = s.unbilled ∧ (s.withLine x).clock = s.clock ∧
      (s.withLine x).notices = s.notices ∧ (s.withLine x).runc = s.runc :=
  ⟨rfl, rfl, rfl, rfl, rfl, rfl, rfl, rfl, rfl, rfl, rfl, rfl, rfl, rfl, rfl, rfl, rfl, rfl, rfl, rfl, rfl, rfl, rfl, rfl, rfl, rfl, rfl, rfl, rfl⟩

@[simp] theorem State.withOrders_fields (x : List Order) :
    (s.withOrders x).pending = s.pending ∧ (s.withOrders x).freeCount = s.freeCount ∧ (s.withOrders x).pins =
      s.pins ∧ (s.withOrders x).sport = s.sport ∧ (s.withOrders x).line = s.line ∧ (s.withOrders x).orders = x ∧
      (s.withOrders x).polls = s.polls ∧ (s.withOrders x).timers = s.timers ∧ (s.withOrders x).settings = s.settings
      ∧ (s.withOrders x).stations = s.stations ∧ (s.withOrders x).relayQueue = s.relayQueue ∧ (s.withOrders x).zones
      = s.zones ∧ (s.withOrders x).freeboard = s.freeboard ∧ (s.withOrders x).console = s.console ∧ (s.withOrders
      x).spouts = s.spouts ∧ (s.withOrders x).heads = s.heads ∧ (s.withOrders x).cycle = s.cycle ∧ (s.withOrders
      x).holdDust = s.holdDust ∧ (s.withOrders x).gates = s.gates ∧ (s.withOrders x).plan = s.plan ∧ (s.withOrders
      x).stepCounter = s.stepCounter ∧ (s.withOrders x).account = s.account ∧ (s.withOrders x).stack = s.stack ∧
      (s.withOrders x).baselines = s.baselines ∧ (s.withOrders x).bills = s.bills ∧ (s.withOrders x).unbilled =
      s.unbilled ∧ (s.withOrders x).clock = s.clock ∧ (s.withOrders x).notices = s.notices ∧ (s.withOrders x).runc =
      s.runc :=
  ⟨rfl, rfl, rfl, rfl, rfl, rfl, rfl, rfl, rfl, rfl, rfl, rfl, rfl, rfl, rfl, rfl, rfl, rfl, rfl, rfl, rfl, rfl, rfl, rfl, rfl, rfl, rfl, rfl, rfl⟩

@[simp] theorem State.withPolls_fields (x : List Poll) :
    (s.withPolls x).pending = s.pending ∧ (s.withPolls x).freeCount = s.freeCount ∧ (s.withPolls x).pins = s.pins
      ∧ (s.withPolls x).sport = s.sport ∧ (s.withPolls x).line = s.line ∧ (s.withPolls x).orders = s.orders ∧
      (s.withPolls x).polls = x ∧ (s.withPolls x).timers = s.timers ∧ (s.withPolls x).settings = s.settings ∧
      (s.withPolls x).stations = s.stations ∧ (s.withPolls x).relayQueue = s.relayQueue ∧ (s.withPolls x).zones =
      s.zones ∧ (s.withPolls x).freeboard = s.freeboard ∧ (s.withPolls x).console = s.console ∧ (s.withPolls
      x).spouts = s.spouts ∧ (s.withPolls x).heads = s.heads ∧ (s.withPolls x).cycle = s.cycle ∧ (s.withPolls
      x).holdDust = s.holdDust ∧ (s.withPolls x).gates = s.gates ∧ (s.withPolls x).plan = s.plan ∧ (s.withPolls
      x).stepCounter = s.stepCounter ∧ (s.withPolls x).account = s.account ∧ (s.withPolls x).stack = s.stack ∧
      (s.withPolls x).baselines = s.baselines ∧ (s.withPolls x).bills = s.bills ∧ (s.withPolls x).unbilled =
      s.unbilled ∧ (s.withPolls x).clock = s.clock ∧ (s.withPolls x).notices = s.notices ∧ (s.withPolls x).runc =
      s.runc :=
  ⟨rfl, rfl, rfl, rfl, rfl, rfl, rfl, rfl, rfl, rfl, rfl, rfl, rfl, rfl, rfl, rfl, rfl, rfl, rfl, rfl, rfl, rfl, rfl, rfl, rfl, rfl, rfl, rfl, rfl⟩

@[simp] theorem State.withTimers_fields (x : PollTimers) :
    (s.withTimers x).pending = s.pending ∧ (s.withTimers x).freeCount = s.freeCount ∧ (s.withTimers x).pins =
      s.pins ∧ (s.withTimers x).sport = s.sport ∧ (s.withTimers x).line = s.line ∧ (s.withTimers x).orders =
      s.orders ∧ (s.withTimers x).polls = s.polls ∧ (s.withTimers x).timers = x ∧ (s.withTimers x).settings =
      s.settings ∧ (s.withTimers x).stations = s.stations ∧ (s.withTimers x).relayQueue = s.relayQueue ∧
      (s.withTimers x).zones = s.zones ∧ (s.withTimers x).freeboard = s.freeboard ∧ (s.withTimers x).console =
      s.console ∧ (s.withTimers x).spouts = s.spouts ∧ (s.withTimers x).heads = s.heads ∧ (s.withTimers x).cycle =
      s.cycle ∧ (s.withTimers x).holdDust = s.holdDust ∧ (s.withTimers x).gates = s.gates ∧ (s.withTimers x).plan =
      s.plan ∧ (s.withTimers x).stepCounter = s.stepCounter ∧ (s.withTimers x).account = s.account ∧ (s.withTimers
      x).stack = s.stack ∧ (s.withTimers x).baselines = s.baselines ∧ (s.withTimers x).bills = s.bills ∧
      (s.withTimers x).unbilled = s.unbilled ∧ (s.withTimers x).clock = s.clock ∧ (s.withTimers x).notices =
      s.notices ∧ (s.withTimers x).runc = s.runc :=
  ⟨rfl, rfl, rfl, rfl, rfl, rfl, rfl, rfl, rfl, rfl, rfl, rfl, rfl, rfl, rfl, rfl, rfl, rfl, rfl, rfl, rfl, rfl, rfl, rfl, rfl, rfl, rfl, rfl, rfl⟩

@[simp] theorem State.withSettings_fields (x : StagedSettings) :
    (s.withSettings x).pending = s.pending ∧ (s.withSettings x).freeCount = s.freeCount ∧ (s.withSettings x).pins
      = s.pins ∧ (s.withSettings x).sport = s.sport ∧ (s.withSettings x).line = s.line ∧ (s.withSettings x).orders =
      s.orders ∧ (s.withSettings x).polls = s.polls ∧ (s.withSettings x).timers = s.timers ∧ (s.withSettings
      x).settings = x ∧ (s.withSettings x).stations = s.stations ∧ (s.withSettings x).relayQueue = s.relayQueue ∧
      (s.withSettings x).zones = s.zones ∧ (s.withSettings x).freeboard = s.freeboard ∧ (s.withSettings x).console =
      s.console ∧ (s.withSettings x).spouts = s.spouts ∧ (s.withSettings x).heads = s.heads ∧ (s.withSettings
      x).cycle = s.cycle ∧ (s.withSettings x).holdDust = s.holdDust ∧ (s.withSettings x).gates = s.gates ∧
      (s.withSettings x).plan = s.plan ∧ (s.withSettings x).stepCounter = s.stepCounter ∧ (s.withSettings x).account
      = s.account ∧ (s.withSettings x).stack = s.stack ∧ (s.withSettings x).baselines = s.baselines ∧
      (s.withSettings x).bills = s.bills ∧ (s.withSettings x).unbilled = s.unbilled ∧ (s.withSettings x).clock =
      s.clock ∧ (s.withSettings x).notices = s.notices ∧ (s.withSettings x).runc = s.runc :=
  ⟨rfl, rfl, rfl, rfl, rfl, rfl, rfl, rfl, rfl, rfl, rfl, rfl, rfl, rfl, rfl, rfl, rfl, rfl, rfl, rfl, rfl, rfl, rfl, rfl, rfl, rfl, rfl, rfl, rfl⟩

@[simp] theorem State.withStations_fields (x : Vector Station 60) :
    (s.withStations x).pending = s.pending ∧ (s.withStations x).freeCount = s.freeCount ∧ (s.withStations x).pins
      = s.pins ∧ (s.withStations x).sport = s.sport ∧ (s.withStations x).line = s.line ∧ (s.withStations x).orders =
      s.orders ∧ (s.withStations x).polls = s.polls ∧ (s.withStations x).timers = s.timers ∧ (s.withStations
      x).settings = s.settings ∧ (s.withStations x).stations = x ∧ (s.withStations x).relayQueue = s.relayQueue ∧
      (s.withStations x).zones = s.zones ∧ (s.withStations x).freeboard = s.freeboard ∧ (s.withStations x).console =
      s.console ∧ (s.withStations x).spouts = s.spouts ∧ (s.withStations x).heads = s.heads ∧ (s.withStations
      x).cycle = s.cycle ∧ (s.withStations x).holdDust = s.holdDust ∧ (s.withStations x).gates = s.gates ∧
      (s.withStations x).plan = s.plan ∧ (s.withStations x).stepCounter = s.stepCounter ∧ (s.withStations x).account
      = s.account ∧ (s.withStations x).stack = s.stack ∧ (s.withStations x).baselines = s.baselines ∧
      (s.withStations x).bills = s.bills ∧ (s.withStations x).unbilled = s.unbilled ∧ (s.withStations x).clock =
      s.clock ∧ (s.withStations x).notices = s.notices ∧ (s.withStations x).runc = s.runc :=
  ⟨rfl, rfl, rfl, rfl, rfl, rfl, rfl, rfl, rfl, rfl, rfl, rfl, rfl, rfl, rfl, rfl, rfl, rfl, rfl, rfl, rfl, rfl, rfl, rfl, rfl, rfl, rfl, rfl, rfl⟩

@[simp] theorem State.withRelayQueue_fields (x : List RelayEntry) :
    (s.withRelayQueue x).pending = s.pending ∧ (s.withRelayQueue x).freeCount = s.freeCount ∧ (s.withRelayQueue
      x).pins = s.pins ∧ (s.withRelayQueue x).sport = s.sport ∧ (s.withRelayQueue x).line = s.line ∧
      (s.withRelayQueue x).orders = s.orders ∧ (s.withRelayQueue x).polls = s.polls ∧ (s.withRelayQueue x).timers =
      s.timers ∧ (s.withRelayQueue x).settings = s.settings ∧ (s.withRelayQueue x).stations = s.stations ∧
      (s.withRelayQueue x).relayQueue = x ∧ (s.withRelayQueue x).zones = s.zones ∧ (s.withRelayQueue x).freeboard =
      s.freeboard ∧ (s.withRelayQueue x).console = s.console ∧ (s.withRelayQueue x).spouts = s.spouts ∧
      (s.withRelayQueue x).heads = s.heads ∧ (s.withRelayQueue x).cycle = s.cycle ∧ (s.withRelayQueue x).holdDust =
      s.holdDust ∧ (s.withRelayQueue x).gates = s.gates ∧ (s.withRelayQueue x).plan = s.plan ∧ (s.withRelayQueue
      x).stepCounter = s.stepCounter ∧ (s.withRelayQueue x).account = s.account ∧ (s.withRelayQueue x).stack =
      s.stack ∧ (s.withRelayQueue x).baselines = s.baselines ∧ (s.withRelayQueue x).bills = s.bills ∧
      (s.withRelayQueue x).unbilled = s.unbilled ∧ (s.withRelayQueue x).clock = s.clock ∧ (s.withRelayQueue
      x).notices = s.notices ∧ (s.withRelayQueue x).runc = s.runc :=
  ⟨rfl, rfl, rfl, rfl, rfl, rfl, rfl, rfl, rfl, rfl, rfl, rfl, rfl, rfl, rfl, rfl, rfl, rfl, rfl, rfl, rfl, rfl, rfl, rfl, rfl, rfl, rfl, rfl, rfl⟩

@[simp] theorem State.withZones_fields (x : ZoneTable) :
    (s.withZones x).pending = s.pending ∧ (s.withZones x).freeCount = s.freeCount ∧ (s.withZones x).pins = s.pins
      ∧ (s.withZones x).sport = s.sport ∧ (s.withZones x).line = s.line ∧ (s.withZones x).orders = s.orders ∧
      (s.withZones x).polls = s.polls ∧ (s.withZones x).timers = s.timers ∧ (s.withZones x).settings = s.settings ∧
      (s.withZones x).stations = s.stations ∧ (s.withZones x).relayQueue = s.relayQueue ∧ (s.withZones x).zones = x
      ∧ (s.withZones x).freeboard = s.freeboard ∧ (s.withZones x).console = s.console ∧ (s.withZones x).spouts =
      s.spouts ∧ (s.withZones x).heads = s.heads ∧ (s.withZones x).cycle = s.cycle ∧ (s.withZones x).holdDust =
      s.holdDust ∧ (s.withZones x).gates = s.gates ∧ (s.withZones x).plan = s.plan ∧ (s.withZones x).stepCounter =
      s.stepCounter ∧ (s.withZones x).account = s.account ∧ (s.withZones x).stack = s.stack ∧ (s.withZones
      x).baselines = s.baselines ∧ (s.withZones x).bills = s.bills ∧ (s.withZones x).unbilled = s.unbilled ∧
      (s.withZones x).clock = s.clock ∧ (s.withZones x).notices = s.notices ∧ (s.withZones x).runc = s.runc :=
  ⟨rfl, rfl, rfl, rfl, rfl, rfl, rfl, rfl, rfl, rfl, rfl, rfl, rfl, rfl, rfl, rfl, rfl, rfl, rfl, rfl, rfl, rfl, rfl, rfl, rfl, rfl, rfl, rfl, rfl⟩

@[simp] theorem State.withFreeboard_fields (x : Vector Word16 9) :
    (s.withFreeboard x).pending = s.pending ∧ (s.withFreeboard x).freeCount = s.freeCount ∧ (s.withFreeboard
      x).pins = s.pins ∧ (s.withFreeboard x).sport = s.sport ∧ (s.withFreeboard x).line = s.line ∧ (s.withFreeboard
      x).orders = s.orders ∧ (s.withFreeboard x).polls = s.polls ∧ (s.withFreeboard x).timers = s.timers ∧
      (s.withFreeboard x).settings = s.settings ∧ (s.withFreeboard x).stations = s.stations ∧ (s.withFreeboard
      x).relayQueue = s.relayQueue ∧ (s.withFreeboard x).zones = s.zones ∧ (s.withFreeboard x).freeboard = x ∧
      (s.withFreeboard x).console = s.console ∧ (s.withFreeboard x).spouts = s.spouts ∧ (s.withFreeboard x).heads =
      s.heads ∧ (s.withFreeboard x).cycle = s.cycle ∧ (s.withFreeboard x).holdDust = s.holdDust ∧ (s.withFreeboard
      x).gates = s.gates ∧ (s.withFreeboard x).plan = s.plan ∧ (s.withFreeboard x).stepCounter = s.stepCounter ∧
      (s.withFreeboard x).account = s.account ∧ (s.withFreeboard x).stack = s.stack ∧ (s.withFreeboard x).baselines
      = s.baselines ∧ (s.withFreeboard x).bills = s.bills ∧ (s.withFreeboard x).unbilled = s.unbilled ∧
      (s.withFreeboard x).clock = s.clock ∧ (s.withFreeboard x).notices = s.notices ∧ (s.withFreeboard x).runc =
      s.runc :=
  ⟨rfl, rfl, rfl, rfl, rfl, rfl, rfl, rfl, rfl, rfl, rfl, rfl, rfl, rfl, rfl, rfl, rfl, rfl, rfl, rfl, rfl, rfl, rfl, rfl, rfl, rfl, rfl, rfl, rfl⟩

@[simp] theorem State.withConsole_fields (x : Level) :
    (s.withConsole x).pending = s.pending ∧ (s.withConsole x).freeCount = s.freeCount ∧ (s.withConsole x).pins =
      s.pins ∧ (s.withConsole x).sport = s.sport ∧ (s.withConsole x).line = s.line ∧ (s.withConsole x).orders =
      s.orders ∧ (s.withConsole x).polls = s.polls ∧ (s.withConsole x).timers = s.timers ∧ (s.withConsole
      x).settings = s.settings ∧ (s.withConsole x).stations = s.stations ∧ (s.withConsole x).relayQueue =
      s.relayQueue ∧ (s.withConsole x).zones = s.zones ∧ (s.withConsole x).freeboard = s.freeboard ∧ (s.withConsole
      x).console = x ∧ (s.withConsole x).spouts = s.spouts ∧ (s.withConsole x).heads = s.heads ∧ (s.withConsole
      x).cycle = s.cycle ∧ (s.withConsole x).holdDust = s.holdDust ∧ (s.withConsole x).gates = s.gates ∧
      (s.withConsole x).plan = s.plan ∧ (s.withConsole x).stepCounter = s.stepCounter ∧ (s.withConsole x).account =
      s.account ∧ (s.withConsole x).stack = s.stack ∧ (s.withConsole x).baselines = s.baselines ∧ (s.withConsole
      x).bills = s.bills ∧ (s.withConsole x).unbilled = s.unbilled ∧ (s.withConsole x).clock = s.clock ∧
      (s.withConsole x).notices = s.notices ∧ (s.withConsole x).runc = s.runc :=
  ⟨rfl, rfl, rfl, rfl, rfl, rfl, rfl, rfl, rfl, rfl, rfl, rfl, rfl, rfl, rfl, rfl, rfl, rfl, rfl, rfl, rfl, rfl, rfl, rfl, rfl, rfl, rfl, rfl, rfl⟩

@[simp] theorem State.withSpouts_fields (x : Pair SpoutRec) :
    (s.withSpouts x).pending = s.pending ∧ (s.withSpouts x).freeCount = s.freeCount ∧ (s.withSpouts x).pins =
      s.pins ∧ (s.withSpouts x).sport = s.sport ∧ (s.withSpouts x).line = s.line ∧ (s.withSpouts x).orders =
      s.orders ∧ (s.withSpouts x).polls = s.polls ∧ (s.withSpouts x).timers = s.timers ∧ (s.withSpouts x).settings =
      s.settings ∧ (s.withSpouts x).stations = s.stations ∧ (s.withSpouts x).relayQueue = s.relayQueue ∧
      (s.withSpouts x).zones = s.zones ∧ (s.withSpouts x).freeboard = s.freeboard ∧ (s.withSpouts x).console =
      s.console ∧ (s.withSpouts x).spouts = x ∧ (s.withSpouts x).heads = s.heads ∧ (s.withSpouts x).cycle = s.cycle
      ∧ (s.withSpouts x).holdDust = s.holdDust ∧ (s.withSpouts x).gates = s.gates ∧ (s.withSpouts x).plan = s.plan ∧
      (s.withSpouts x).stepCounter = s.stepCounter ∧ (s.withSpouts x).account = s.account ∧ (s.withSpouts x).stack =
      s.stack ∧ (s.withSpouts x).baselines = s.baselines ∧ (s.withSpouts x).bills = s.bills ∧ (s.withSpouts
      x).unbilled = s.unbilled ∧ (s.withSpouts x).clock = s.clock ∧ (s.withSpouts x).notices = s.notices ∧
      (s.withSpouts x).runc = s.runc :=
  ⟨rfl, rfl, rfl, rfl, rfl, rfl, rfl, rfl, rfl, rfl, rfl, rfl, rfl, rfl, rfl, rfl, rfl, rfl, rfl, rfl, rfl, rfl, rfl, rfl, rfl, rfl, rfl, rfl, rfl⟩

@[simp] theorem State.withHeads_fields (x : Vector Head 16) :
    (s.withHeads x).pending = s.pending ∧ (s.withHeads x).freeCount = s.freeCount ∧ (s.withHeads x).pins = s.pins
      ∧ (s.withHeads x).sport = s.sport ∧ (s.withHeads x).line = s.line ∧ (s.withHeads x).orders = s.orders ∧
      (s.withHeads x).polls = s.polls ∧ (s.withHeads x).timers = s.timers ∧ (s.withHeads x).settings = s.settings ∧
      (s.withHeads x).stations = s.stations ∧ (s.withHeads x).relayQueue = s.relayQueue ∧ (s.withHeads x).zones =
      s.zones ∧ (s.withHeads x).freeboard = s.freeboard ∧ (s.withHeads x).console = s.console ∧ (s.withHeads
      x).spouts = s.spouts ∧ (s.withHeads x).heads = x ∧ (s.withHeads x).cycle = s.cycle ∧ (s.withHeads x).holdDust
      = s.holdDust ∧ (s.withHeads x).gates = s.gates ∧ (s.withHeads x).plan = s.plan ∧ (s.withHeads x).stepCounter =
      s.stepCounter ∧ (s.withHeads x).account = s.account ∧ (s.withHeads x).stack = s.stack ∧ (s.withHeads
      x).baselines = s.baselines ∧ (s.withHeads x).bills = s.bills ∧ (s.withHeads x).unbilled = s.unbilled ∧
      (s.withHeads x).clock = s.clock ∧ (s.withHeads x).notices = s.notices ∧ (s.withHeads x).runc = s.runc :=
  ⟨rfl, rfl, rfl, rfl, rfl, rfl, rfl, rfl, rfl, rfl, rfl, rfl, rfl, rfl, rfl, rfl, rfl, rfl, rfl, rfl, rfl, rfl, rfl, rfl, rfl, rfl, rfl, rfl, rfl⟩

@[simp] theorem State.withCycle_fields (x : Cycle) :
    (s.withCycle x).pending = s.pending ∧ (s.withCycle x).freeCount = s.freeCount ∧ (s.withCycle x).pins = s.pins
      ∧ (s.withCycle x).sport = s.sport ∧ (s.withCycle x).line = s.line ∧ (s.withCycle x).orders = s.orders ∧
      (s.withCycle x).polls = s.polls ∧ (s.withCycle x).timers = s.timers ∧ (s.withCycle x).settings = s.settings ∧
      (s.withCycle x).stations = s.stations ∧ (s.withCycle x).relayQueue = s.relayQueue ∧ (s.withCycle x).zones =
      s.zones ∧ (s.withCycle x).freeboard = s.freeboard ∧ (s.withCycle x).console = s.console ∧ (s.withCycle
      x).spouts = s.spouts ∧ (s.withCycle x).heads = s.heads ∧ (s.withCycle x).cycle = x ∧ (s.withCycle x).holdDust
      = s.holdDust ∧ (s.withCycle x).gates = s.gates ∧ (s.withCycle x).plan = s.plan ∧ (s.withCycle x).stepCounter =
      s.stepCounter ∧ (s.withCycle x).account = s.account ∧ (s.withCycle x).stack = s.stack ∧ (s.withCycle
      x).baselines = s.baselines ∧ (s.withCycle x).bills = s.bills ∧ (s.withCycle x).unbilled = s.unbilled ∧
      (s.withCycle x).clock = s.clock ∧ (s.withCycle x).notices = s.notices ∧ (s.withCycle x).runc = s.runc :=
  ⟨rfl, rfl, rfl, rfl, rfl, rfl, rfl, rfl, rfl, rfl, rfl, rfl, rfl, rfl, rfl, rfl, rfl, rfl, rfl, rfl, rfl, rfl, rfl, rfl, rfl, rfl, rfl, rfl, rfl⟩

@[simp] theorem State.withHoldDust_fields (x : Vector Dust 9) :
    (s.withHoldDust x).pending = s.pending ∧ (s.withHoldDust x).freeCount = s.freeCount ∧ (s.withHoldDust x).pins
      = s.pins ∧ (s.withHoldDust x).sport = s.sport ∧ (s.withHoldDust x).line = s.line ∧ (s.withHoldDust x).orders =
      s.orders ∧ (s.withHoldDust x).polls = s.polls ∧ (s.withHoldDust x).timers = s.timers ∧ (s.withHoldDust
      x).settings = s.settings ∧ (s.withHoldDust x).stations = s.stations ∧ (s.withHoldDust x).relayQueue =
      s.relayQueue ∧ (s.withHoldDust x).zones = s.zones ∧ (s.withHoldDust x).freeboard = s.freeboard ∧
      (s.withHoldDust x).console = s.console ∧ (s.withHoldDust x).spouts = s.spouts ∧ (s.withHoldDust x).heads =
      s.heads ∧ (s.withHoldDust x).cycle = s.cycle ∧ (s.withHoldDust x).holdDust = x ∧ (s.withHoldDust x).gates =
      s.gates ∧ (s.withHoldDust x).plan = s.plan ∧ (s.withHoldDust x).stepCounter = s.stepCounter ∧ (s.withHoldDust
      x).account = s.account ∧ (s.withHoldDust x).stack = s.stack ∧ (s.withHoldDust x).baselines = s.baselines ∧
      (s.withHoldDust x).bills = s.bills ∧ (s.withHoldDust x).unbilled = s.unbilled ∧ (s.withHoldDust x).clock =
      s.clock ∧ (s.withHoldDust x).notices = s.notices ∧ (s.withHoldDust x).runc = s.runc :=
  ⟨rfl, rfl, rfl, rfl, rfl, rfl, rfl, rfl, rfl, rfl, rfl, rfl, rfl, rfl, rfl, rfl, rfl, rfl, rfl, rfl, rfl, rfl, rfl, rfl, rfl, rfl, rfl, rfl, rfl⟩

@[simp] theorem State.withGates_fields (x : Pair GateRec) :
    (s.withGates x).pending = s.pending ∧ (s.withGates x).freeCount = s.freeCount ∧ (s.withGates x).pins = s.pins
      ∧ (s.withGates x).sport = s.sport ∧ (s.withGates x).line = s.line ∧ (s.withGates x).orders = s.orders ∧
      (s.withGates x).polls = s.polls ∧ (s.withGates x).timers = s.timers ∧ (s.withGates x).settings = s.settings ∧
      (s.withGates x).stations = s.stations ∧ (s.withGates x).relayQueue = s.relayQueue ∧ (s.withGates x).zones =
      s.zones ∧ (s.withGates x).freeboard = s.freeboard ∧ (s.withGates x).console = s.console ∧ (s.withGates
      x).spouts = s.spouts ∧ (s.withGates x).heads = s.heads ∧ (s.withGates x).cycle = s.cycle ∧ (s.withGates
      x).holdDust = s.holdDust ∧ (s.withGates x).gates = x ∧ (s.withGates x).plan = s.plan ∧ (s.withGates
      x).stepCounter = s.stepCounter ∧ (s.withGates x).account = s.account ∧ (s.withGates x).stack = s.stack ∧
      (s.withGates x).baselines = s.baselines ∧ (s.withGates x).bills = s.bills ∧ (s.withGates x).unbilled =
      s.unbilled ∧ (s.withGates x).clock = s.clock ∧ (s.withGates x).notices = s.notices ∧ (s.withGates x).runc =
      s.runc :=
  ⟨rfl, rfl, rfl, rfl, rfl, rfl, rfl, rfl, rfl, rfl, rfl, rfl, rfl, rfl, rfl, rfl, rfl, rfl, rfl, rfl, rfl, rfl, rfl, rfl, rfl, rfl, rfl, rfl, rfl⟩

@[simp] theorem State.withPlan_fields (x : List StepRec) :
    (s.withPlan x).pending = s.pending ∧ (s.withPlan x).freeCount = s.freeCount ∧ (s.withPlan x).pins = s.pins ∧
      (s.withPlan x).sport = s.sport ∧ (s.withPlan x).line = s.line ∧ (s.withPlan x).orders = s.orders ∧ (s.withPlan
      x).polls = s.polls ∧ (s.withPlan x).timers = s.timers ∧ (s.withPlan x).settings = s.settings ∧ (s.withPlan
      x).stations = s.stations ∧ (s.withPlan x).relayQueue = s.relayQueue ∧ (s.withPlan x).zones = s.zones ∧
      (s.withPlan x).freeboard = s.freeboard ∧ (s.withPlan x).console = s.console ∧ (s.withPlan x).spouts = s.spouts
      ∧ (s.withPlan x).heads = s.heads ∧ (s.withPlan x).cycle = s.cycle ∧ (s.withPlan x).holdDust = s.holdDust ∧
      (s.withPlan x).gates = s.gates ∧ (s.withPlan x).plan = x ∧ (s.withPlan x).stepCounter = s.stepCounter ∧
      (s.withPlan x).account = s.account ∧ (s.withPlan x).stack = s.stack ∧ (s.withPlan x).baselines = s.baselines ∧
      (s.withPlan x).bills = s.bills ∧ (s.withPlan x).unbilled = s.unbilled ∧ (s.withPlan x).clock = s.clock ∧
      (s.withPlan x).notices = s.notices ∧ (s.withPlan x).runc = s.runc :=
  ⟨rfl, rfl, rfl, rfl, rfl, rfl, rfl, rfl, rfl, rfl, rfl, rfl, rfl, rfl, rfl, rfl, rfl, rfl, rfl, rfl, rfl, rfl, rfl, rfl, rfl, rfl, rfl, rfl, rfl⟩

@[simp] theorem State.withStepCounter_fields (x : Word16) :
    (s.withStepCounter x).pending = s.pending ∧ (s.withStepCounter x).freeCount = s.freeCount ∧ (s.withStepCounter
      x).pins = s.pins ∧ (s.withStepCounter x).sport = s.sport ∧ (s.withStepCounter x).line = s.line ∧
      (s.withStepCounter x).orders = s.orders ∧ (s.withStepCounter x).polls = s.polls ∧ (s.withStepCounter x).timers
      = s.timers ∧ (s.withStepCounter x).settings = s.settings ∧ (s.withStepCounter x).stations = s.stations ∧
      (s.withStepCounter x).relayQueue = s.relayQueue ∧ (s.withStepCounter x).zones = s.zones ∧ (s.withStepCounter
      x).freeboard = s.freeboard ∧ (s.withStepCounter x).console = s.console ∧ (s.withStepCounter x).spouts =
      s.spouts ∧ (s.withStepCounter x).heads = s.heads ∧ (s.withStepCounter x).cycle = s.cycle ∧ (s.withStepCounter
      x).holdDust = s.holdDust ∧ (s.withStepCounter x).gates = s.gates ∧ (s.withStepCounter x).plan = s.plan ∧
      (s.withStepCounter x).stepCounter = x ∧ (s.withStepCounter x).account = s.account ∧ (s.withStepCounter
      x).stack = s.stack ∧ (s.withStepCounter x).baselines = s.baselines ∧ (s.withStepCounter x).bills = s.bills ∧
      (s.withStepCounter x).unbilled = s.unbilled ∧ (s.withStepCounter x).clock = s.clock ∧ (s.withStepCounter
      x).notices = s.notices ∧ (s.withStepCounter x).runc = s.runc :=
  ⟨rfl, rfl, rfl, rfl, rfl, rfl, rfl, rfl, rfl, rfl, rfl, rfl, rfl, rfl, rfl, rfl, rfl, rfl, rfl, rfl, rfl, rfl, rfl, rfl, rfl, rfl, rfl, rfl, rfl⟩

@[simp] theorem State.withAccount_fields (x : Pair (Option Word16)) :
    (s.withAccount x).pending = s.pending ∧ (s.withAccount x).freeCount = s.freeCount ∧ (s.withAccount x).pins =
      s.pins ∧ (s.withAccount x).sport = s.sport ∧ (s.withAccount x).line = s.line ∧ (s.withAccount x).orders =
      s.orders ∧ (s.withAccount x).polls = s.polls ∧ (s.withAccount x).timers = s.timers ∧ (s.withAccount
      x).settings = s.settings ∧ (s.withAccount x).stations = s.stations ∧ (s.withAccount x).relayQueue =
      s.relayQueue ∧ (s.withAccount x).zones = s.zones ∧ (s.withAccount x).freeboard = s.freeboard ∧ (s.withAccount
      x).console = s.console ∧ (s.withAccount x).spouts = s.spouts ∧ (s.withAccount x).heads = s.heads ∧
      (s.withAccount x).cycle = s.cycle ∧ (s.withAccount x).holdDust = s.holdDust ∧ (s.withAccount x).gates =
      s.gates ∧ (s.withAccount x).plan = s.plan ∧ (s.withAccount x).stepCounter = s.stepCounter ∧ (s.withAccount
      x).account = x ∧ (s.withAccount x).stack = s.stack ∧ (s.withAccount x).baselines = s.baselines ∧
      (s.withAccount x).bills = s.bills ∧ (s.withAccount x).unbilled = s.unbilled ∧ (s.withAccount x).clock =
      s.clock ∧ (s.withAccount x).notices = s.notices ∧ (s.withAccount x).runc = s.runc :=
  ⟨rfl, rfl, rfl, rfl, rfl, rfl, rfl, rfl, rfl, rfl, rfl, rfl, rfl, rfl, rfl, rfl, rfl, rfl, rfl, rfl, rfl, rfl, rfl, rfl, rfl, rfl, rfl, rfl, rfl⟩

@[simp] theorem State.withStack_fields (x : StackUnit) :
    (s.withStack x).pending = s.pending ∧ (s.withStack x).freeCount = s.freeCount ∧ (s.withStack x).pins = s.pins
      ∧ (s.withStack x).sport = s.sport ∧ (s.withStack x).line = s.line ∧ (s.withStack x).orders = s.orders ∧
      (s.withStack x).polls = s.polls ∧ (s.withStack x).timers = s.timers ∧ (s.withStack x).settings = s.settings ∧
      (s.withStack x).stations = s.stations ∧ (s.withStack x).relayQueue = s.relayQueue ∧ (s.withStack x).zones =
      s.zones ∧ (s.withStack x).freeboard = s.freeboard ∧ (s.withStack x).console = s.console ∧ (s.withStack
      x).spouts = s.spouts ∧ (s.withStack x).heads = s.heads ∧ (s.withStack x).cycle = s.cycle ∧ (s.withStack
      x).holdDust = s.holdDust ∧ (s.withStack x).gates = s.gates ∧ (s.withStack x).plan = s.plan ∧ (s.withStack
      x).stepCounter = s.stepCounter ∧ (s.withStack x).account = s.account ∧ (s.withStack x).stack = x ∧
      (s.withStack x).baselines = s.baselines ∧ (s.withStack x).bills = s.bills ∧ (s.withStack x).unbilled =
      s.unbilled ∧ (s.withStack x).clock = s.clock ∧ (s.withStack x).notices = s.notices ∧ (s.withStack x).runc =
      s.runc :=
  ⟨rfl, rfl, rfl, rfl, rfl, rfl, rfl, rfl, rfl, rfl, rfl, rfl, rfl, rfl, rfl, rfl, rfl, rfl, rfl, rfl, rfl, rfl, rfl, rfl, rfl, rfl, rfl, rfl, rfl⟩

@[simp] theorem State.withBaselines_fields (x : Pair Baseline) :
    (s.withBaselines x).pending = s.pending ∧ (s.withBaselines x).freeCount = s.freeCount ∧ (s.withBaselines
      x).pins = s.pins ∧ (s.withBaselines x).sport = s.sport ∧ (s.withBaselines x).line = s.line ∧ (s.withBaselines
      x).orders = s.orders ∧ (s.withBaselines x).polls = s.polls ∧ (s.withBaselines x).timers = s.timers ∧
      (s.withBaselines x).settings = s.settings ∧ (s.withBaselines x).stations = s.stations ∧ (s.withBaselines
      x).relayQueue = s.relayQueue ∧ (s.withBaselines x).zones = s.zones ∧ (s.withBaselines x).freeboard =
      s.freeboard ∧ (s.withBaselines x).console = s.console ∧ (s.withBaselines x).spouts = s.spouts ∧
      (s.withBaselines x).heads = s.heads ∧ (s.withBaselines x).cycle = s.cycle ∧ (s.withBaselines x).holdDust =
      s.holdDust ∧ (s.withBaselines x).gates = s.gates ∧ (s.withBaselines x).plan = s.plan ∧ (s.withBaselines
      x).stepCounter = s.stepCounter ∧ (s.withBaselines x).account = s.account ∧ (s.withBaselines x).stack = s.stack
      ∧ (s.withBaselines x).baselines = x ∧ (s.withBaselines x).bills = s.bills ∧ (s.withBaselines x).unbilled =
      s.unbilled ∧ (s.withBaselines x).clock = s.clock ∧ (s.withBaselines x).notices = s.notices ∧ (s.withBaselines
      x).runc = s.runc :=
  ⟨rfl, rfl, rfl, rfl, rfl, rfl, rfl, rfl, rfl, rfl, rfl, rfl, rfl, rfl, rfl, rfl, rfl, rfl, rfl, rfl, rfl, rfl, rfl, rfl, rfl, rfl, rfl, rfl, rfl⟩

@[simp] theorem State.withBills_fields (x : Vector (Option Bill) 8) :
    (s.withBills x).pending = s.pending ∧ (s.withBills x).freeCount = s.freeCount ∧ (s.withBills x).pins = s.pins
      ∧ (s.withBills x).sport = s.sport ∧ (s.withBills x).line = s.line ∧ (s.withBills x).orders = s.orders ∧
      (s.withBills x).polls = s.polls ∧ (s.withBills x).timers = s.timers ∧ (s.withBills x).settings = s.settings ∧
      (s.withBills x).stations = s.stations ∧ (s.withBills x).relayQueue = s.relayQueue ∧ (s.withBills x).zones =
      s.zones ∧ (s.withBills x).freeboard = s.freeboard ∧ (s.withBills x).console = s.console ∧ (s.withBills
      x).spouts = s.spouts ∧ (s.withBills x).heads = s.heads ∧ (s.withBills x).cycle = s.cycle ∧ (s.withBills
      x).holdDust = s.holdDust ∧ (s.withBills x).gates = s.gates ∧ (s.withBills x).plan = s.plan ∧ (s.withBills
      x).stepCounter = s.stepCounter ∧ (s.withBills x).account = s.account ∧ (s.withBills x).stack = s.stack ∧
      (s.withBills x).baselines = s.baselines ∧ (s.withBills x).bills = x ∧ (s.withBills x).unbilled = s.unbilled ∧
      (s.withBills x).clock = s.clock ∧ (s.withBills x).notices = s.notices ∧ (s.withBills x).runc = s.runc :=
  ⟨rfl, rfl, rfl, rfl, rfl, rfl, rfl, rfl, rfl, rfl, rfl, rfl, rfl, rfl, rfl, rfl, rfl, rfl, rfl, rfl, rfl, rfl, rfl, rfl, rfl, rfl, rfl, rfl, rfl⟩

@[simp] theorem State.withUnbilled_fields (x : Word32) :
    (s.withUnbilled x).pending = s.pending ∧ (s.withUnbilled x).freeCount = s.freeCount ∧ (s.withUnbilled x).pins
      = s.pins ∧ (s.withUnbilled x).sport = s.sport ∧ (s.withUnbilled x).line = s.line ∧ (s.withUnbilled x).orders =
      s.orders ∧ (s.withUnbilled x).polls = s.polls ∧ (s.withUnbilled x).timers = s.timers ∧ (s.withUnbilled
      x).settings = s.settings ∧ (s.withUnbilled x).stations = s.stations ∧ (s.withUnbilled x).relayQueue =
      s.relayQueue ∧ (s.withUnbilled x).zones = s.zones ∧ (s.withUnbilled x).freeboard = s.freeboard ∧
      (s.withUnbilled x).console = s.console ∧ (s.withUnbilled x).spouts = s.spouts ∧ (s.withUnbilled x).heads =
      s.heads ∧ (s.withUnbilled x).cycle = s.cycle ∧ (s.withUnbilled x).holdDust = s.holdDust ∧ (s.withUnbilled
      x).gates = s.gates ∧ (s.withUnbilled x).plan = s.plan ∧ (s.withUnbilled x).stepCounter = s.stepCounter ∧
      (s.withUnbilled x).account = s.account ∧ (s.withUnbilled x).stack = s.stack ∧ (s.withUnbilled x).baselines =
      s.baselines ∧ (s.withUnbilled x).bills = s.bills ∧ (s.withUnbilled x).unbilled = x ∧ (s.withUnbilled x).clock
      = s.clock ∧ (s.withUnbilled x).notices = s.notices ∧ (s.withUnbilled x).runc = s.runc :=
  ⟨rfl, rfl, rfl, rfl, rfl, rfl, rfl, rfl, rfl, rfl, rfl, rfl, rfl, rfl, rfl, rfl, rfl, rfl, rfl, rfl, rfl, rfl, rfl, rfl, rfl, rfl, rfl, rfl, rfl⟩

@[simp] theorem State.withClock_fields (x : Clock) :
    (s.withClock x).pending = s.pending ∧ (s.withClock x).freeCount = s.freeCount ∧ (s.withClock x).pins = s.pins
      ∧ (s.withClock x).sport = s.sport ∧ (s.withClock x).line = s.line ∧ (s.withClock x).orders = s.orders ∧
      (s.withClock x).polls = s.polls ∧ (s.withClock x).timers = s.timers ∧ (s.withClock x).settings = s.settings ∧
      (s.withClock x).stations = s.stations ∧ (s.withClock x).relayQueue = s.relayQueue ∧ (s.withClock x).zones =
      s.zones ∧ (s.withClock x).freeboard = s.freeboard ∧ (s.withClock x).console = s.console ∧ (s.withClock
      x).spouts = s.spouts ∧ (s.withClock x).heads = s.heads ∧ (s.withClock x).cycle = s.cycle ∧ (s.withClock
      x).holdDust = s.holdDust ∧ (s.withClock x).gates = s.gates ∧ (s.withClock x).plan = s.plan ∧ (s.withClock
      x).stepCounter = s.stepCounter ∧ (s.withClock x).account = s.account ∧ (s.withClock x).stack = s.stack ∧
      (s.withClock x).baselines = s.baselines ∧ (s.withClock x).bills = s.bills ∧ (s.withClock x).unbilled =
      s.unbilled ∧ (s.withClock x).clock = x ∧ (s.withClock x).notices = s.notices ∧ (s.withClock x).runc = s.runc :=
  ⟨rfl, rfl, rfl, rfl, rfl, rfl, rfl, rfl, rfl, rfl, rfl, rfl, rfl, rfl, rfl, rfl, rfl, rfl, rfl, rfl, rfl, rfl, rfl, rfl, rfl, rfl, rfl, rfl, rfl⟩

@[simp] theorem State.withNotices_fields (x : Notices) :
    (s.withNotices x).pending = s.pending ∧ (s.withNotices x).freeCount = s.freeCount ∧ (s.withNotices x).pins =
      s.pins ∧ (s.withNotices x).sport = s.sport ∧ (s.withNotices x).line = s.line ∧ (s.withNotices x).orders =
      s.orders ∧ (s.withNotices x).polls = s.polls ∧ (s.withNotices x).timers = s.timers ∧ (s.withNotices
      x).settings = s.settings ∧ (s.withNotices x).stations = s.stations ∧ (s.withNotices x).relayQueue =
      s.relayQueue ∧ (s.withNotices x).zones = s.zones ∧ (s.withNotices x).freeboard = s.freeboard ∧ (s.withNotices
      x).console = s.console ∧ (s.withNotices x).spouts = s.spouts ∧ (s.withNotices x).heads = s.heads ∧
      (s.withNotices x).cycle = s.cycle ∧ (s.withNotices x).holdDust = s.holdDust ∧ (s.withNotices x).gates =
      s.gates ∧ (s.withNotices x).plan = s.plan ∧ (s.withNotices x).stepCounter = s.stepCounter ∧ (s.withNotices
      x).account = s.account ∧ (s.withNotices x).stack = s.stack ∧ (s.withNotices x).baselines = s.baselines ∧
      (s.withNotices x).bills = s.bills ∧ (s.withNotices x).unbilled = s.unbilled ∧ (s.withNotices x).clock =
      s.clock ∧ (s.withNotices x).notices = x ∧ (s.withNotices x).runc = s.runc :=
  ⟨rfl, rfl, rfl, rfl, rfl, rfl, rfl, rfl, rfl, rfl, rfl, rfl, rfl, rfl, rfl, rfl, rfl, rfl, rfl, rfl, rfl, rfl, rfl, rfl, rfl, rfl, rfl, rfl, rfl⟩

@[simp] theorem State.withRunc_fields (x : RunControl) :
    (s.withRunc x).pending = s.pending ∧ (s.withRunc x).freeCount = s.freeCount ∧ (s.withRunc x).pins = s.pins ∧
      (s.withRunc x).sport = s.sport ∧ (s.withRunc x).line = s.line ∧ (s.withRunc x).orders = s.orders ∧ (s.withRunc
      x).polls = s.polls ∧ (s.withRunc x).timers = s.timers ∧ (s.withRunc x).settings = s.settings ∧ (s.withRunc
      x).stations = s.stations ∧ (s.withRunc x).relayQueue = s.relayQueue ∧ (s.withRunc x).zones = s.zones ∧
      (s.withRunc x).freeboard = s.freeboard ∧ (s.withRunc x).console = s.console ∧ (s.withRunc x).spouts = s.spouts
      ∧ (s.withRunc x).heads = s.heads ∧ (s.withRunc x).cycle = s.cycle ∧ (s.withRunc x).holdDust = s.holdDust ∧
      (s.withRunc x).gates = s.gates ∧ (s.withRunc x).plan = s.plan ∧ (s.withRunc x).stepCounter = s.stepCounter ∧
      (s.withRunc x).account = s.account ∧ (s.withRunc x).stack = s.stack ∧ (s.withRunc x).baselines = s.baselines ∧
      (s.withRunc x).bills = s.bills ∧ (s.withRunc x).unbilled = s.unbilled ∧ (s.withRunc x).clock = s.clock ∧
      (s.withRunc x).notices = s.notices ∧ (s.withRunc x).runc = x :=
  ⟨rfl, rfl, rfl, rfl, rfl, rfl, rfl, rfl, rfl, rfl, rfl, rfl, rfl, rfl, rfl, rfl, rfl, rfl, rfl, rfl, rfl, rfl, rfl, rfl, rfl, rfl, rfl, rfl, rfl⟩

/-! ## Pairs -/

@[simp] theorem Pair.get_set_self {α : Type} (p : Pair α) (sp : Spout) (x : α) : (p.set sp x).get sp = x := by
  cases sp <;> rfl

theorem Pair.get_set_other {α : Type} (p : Pair α) (sp sq : Spout) (x : α) (h : sq ≠ sp) :
    (p.set sp x).get sq = p.get sq := by
  cases sp <;> cases sq <;> first | rfl | exact absurd rfl h

theorem Pair.ext_get {α : Type} {p q : Pair α} (h : ∀ sp, p.get sp = q.get sp) : p = q := by
  cases p; cases q; have ha := h .a; have hb := h .b; simp only [Pair.get] at ha hb; rw [ha, hb]

end Sys2Proof.Machine
end

