-- ==== Sys2Proof/Laws/Keeps.lean ====
section
/-! SUPPORT. What the shared operations leave alone. A reading `k` of the state that the writers of a level do not change
is not changed by any operation of that level: one lemma per operation, for every such reading. -/

namespace Sys2Proof.Machine

variable {κ : Type} {k : State → κ}

/-! ## Levels -/

/-- `k` does not read what PSEQ, STACK and GATE's postings write. -/
structure KeepsPlan (k : State → κ) : Prop where
  orders : ∀ s x, k (s.withOrders x) = k s
  plan : ∀ s x, k (s.withPlan x) = k s
  stepCounter : ∀ s x, k (s.withStepCounter x) = k s
  account : ∀ s x, k (s.withAccount x) = k s
  stack : ∀ s x, k (s.withStack x) = k s
  bills : ∀ s x, k (s.withBills x) = k s
  notices : ∀ s x, k (s.withNotices x) = k s

/-- Nor what an evaluation of the pour block writes. -/
structure KeepsBlock (k : State → κ) : Prop extends KeepsPlan k where
  sport : ∀ s x, k (s.withSport x) = k s
  relayQueue : ∀ s x, k (s.withRelayQueue x) = k s

/-- Nor what the TCU writes. -/
structure KeepsTravel (k : State → κ) : Prop extends KeepsBlock k where
  spouts : ∀ s x, k (s.withSpouts x) = k s
  zones : ∀ s x, k (s.withZones x) = k s

/-- Nor what the arbiter and the starts of transactions write. -/
structure KeepsLine (k : State → κ) : Prop extends KeepsTravel k where
  gates : ∀ s x, k (s.withGates x) = k s
  line : ∀ s x, k (s.withLine x) = k s
  polls : ∀ s x, k (s.withPolls x) = k s

/-- Nor what DMON writes. -/
structure KeepsDust (k : State → κ) : Prop extends KeepsBlock k where
  heads : ∀ s x, k (s.withHeads x) = k s
  cycle : ∀ s x, k (s.withCycle x) = k s
  holdDust : ∀ s x, k (s.withHoldDust x) = k s
  polls : ∀ s x, k (s.withPolls x) = k s

theorem keeps_foldl {α : Type} (f : State → α → State) (h : ∀ s a, k (f s a) = k s) (l : List α) (s : State) :
    k (l.foldl f s) = k s := by
  induction l generalizing s with
  | nil => rfl
  | cons a l ih => rw [List.foldl_cons, ih, h]

/-! ## PSEQ, STACK and postings -/

section Plan
variable (hk : KeepsPlan k) (s : State)
include hk

theorem setNotice_keeps (n : Notice) (v : Word16) : k (setNotice n v s) = k s := hk.notices _ _

theorem postOrder_keeps (o : Order) : k (postOrder o s) = k s := hk.orders _ _

theorem postGate_keeps (sp : Spout) (x : Setting) : k (postGate sp x s) = k s := by
  unfold postGate; split
  · exact postOrder_keeps hk s _
  · rfl

theorem postStop_keeps (sp : Spout) : k (postStop sp s) = k s := by
  unfold postStop; split
  · exact postOrder_keeps hk s _
  · rfl

theorem closeUnlessClosed_keeps (sp : Spout) : k (closeUnlessClosed sp s) = k s := by
  unfold closeUnlessClosed; split
  · rfl
  · exact postGate_keeps hk s sp 0

theorem reduceTo_keeps (sp : Spout) (c : Setting) : k (reduceTo sp c s) = k s := by
  unfold reduceTo; split
  · split
    · exact postGate_keeps hk s sp c
    · rfl
  · rfl

theorem openAtCap_keeps (sp : Spout) : k (openAtCap sp s) = k s := by
  unfold openAtCap; split
  · exact postGate_keeps hk s sp _
  · rfl

theorem updateStep_keeps (n : Word16) (f : StepRec → StepRec) : k (updateStep n f s) = k s := hk.plan _ _

theorem setStepState_keeps (n : Word16) (x : StepState) : k (setStepState n x s) = k s := hk.plan _ _

theorem holdStep_keeps (sp : Spout) : k (holdStep sp s) = k s := by
  unfold holdStep; split
  · exact setStepState_keeps hk s _ _
  · rfl

theorem updateOpenBill_keeps (f : Bill → Bill) : k (updateOpenBill f s) = k s := by
  unfold updateOpenBill; split
  · split
    · exact hk.bills _ _
    · rfl
  · rfl

theorem countDoneStep_keeps : k (countDoneStep s) = k s := updateOpenBill_keeps hk s _

theorem joinPlan_keeps (mk : Word16 → StepRec) (place : StepRec → List StepRec → List StepRec) :
    k (joinPlan mk place s) = k s := by
  unfold joinPlan; rw [hk.stepCounter, hk.plan]

theorem createTrimAtTail_keeps (sp : Spout) (r : TrimRequest) : k (createTrimAtTail sp r s) = k s :=
  joinPlan_keeps hk s _ _

theorem pushEntry_keeps (sp : Spout) (e : StackEntry) : k (pushEntry sp e s) = k s := by
  unfold pushEntry; split <;> exact hk.stack _ _

theorem pushRunning_keeps (sp : Spout) (r : StepRec) (req : TrimRequest) : k (pushRunning sp r req s) = k s := by
  unfold pushRunning; dsimp only
  rw [joinPlan_keeps hk]
  split
  · rw [closeUnlessClosed_keeps hk, setStepState_keeps hk, pushEntry_keeps hk]
  · rw [setStepState_keeps hk, pushEntry_keeps hk]

theorem setLatch_keeps (sp : Spout) (r : TrimRequest) : k (setLatch sp r s) = k s := hk.stack _ _

theorem clearLatch_keeps (sp : Spout) : k (clearLatch sp s) = k s := hk.stack _ _

theorem serveLatch_keeps (sp : Spout) : k (serveLatch sp s) = k s := by
  unfold serveLatch; split
  · rfl
  · split
    · rw [setNotice_keeps hk, clearLatch_keeps hk]
    · dsimp only; rw [setNotice_keeps hk, clearLatch_keeps hk]
      split
      · exact pushRunning_keeps hk s _ _ _
      · exact createTrimAtTail_keeps hk s _ _

theorem serveShared_keeps : k (serveShared s) = k s := by
  unfold serveShared; split
  · dsimp only; split
    · rw [serveLatch_keeps hk, serveLatch_keeps hk]
    · exact serveLatch_keeps hk s _
  · rfl

theorem dropTop_keeps (sp : Spout) : k (dropTop sp s) = k s := by
  unfold dropTop; split
  · split <;> exact hk.stack _ _
  · exact hk.stack _ _

theorem markDone_keeps (n : Word16) : k (markDone n s) = k s := by
  unfold markDone; rw [countDoneStep_keeps hk, setNotice_keeps hk, setStepState_keeps hk]

theorem popCascade_keeps (sp : Spout) (fuel : Nat) (n : Word16) : k (popCascade sp fuel n s) = k s := by
  induction fuel generalizing n s with
  | zero => rfl
  | succ fuel ih =>
    unfold popCascade; split
    · rfl
    · split
      · dsimp only; split
        · rw [setStepState_keeps hk, dropTop_keeps hk]
        · split
          · split
            · rw [ih, markDone_keeps hk, setStepState_keeps hk, dropTop_keeps hk]
            · rw [markDone_keeps hk, setStepState_keeps hk, dropTop_keeps hk]
          · rw [setStepState_keeps hk, dropTop_keeps hk]
      · rfl

theorem trimEnded_keeps (sp : Spout) (n : Word16) : k (trimEnded sp n s) = k s := by
  unfold trimEnded; dsimp only
  split
  · rw [serveShared_keeps hk]; split
    · rw [serveLatch_keeps hk, popCascade_keeps hk]
    · exact popCascade_keeps hk s _ _ _
  · split
    · rw [serveLatch_keeps hk, popCascade_keeps hk]
    · exact popCascade_keeps hk s _ _ _

theorem afterEnd_keeps (r : StepRec) : k (afterEnd r s) = k s := by
  unfold afterEnd; split
  · exact trimEnded_keeps hk s _ _
  · rfl

theorem enterDone_keeps (r : StepRec) : k (enterDone r s) = k s := by
  unfold enterDone; dsimp only
  rw [afterEnd_keeps hk, countDoneStep_keeps hk, setNotice_keeps hk]
  split
  · rw [closeUnlessClosed_keeps hk, setStepState_keeps hk]
  · exact setStepState_keeps hk s _ _

theorem topOff_keeps (n : Word16) : k (topOff n s) = k s := by
  unfold topOff; split
  · rfl
  · split
    · dsimp only; split
      · rw [reduceTo_keeps hk, updateStep_keeps hk]
      · exact updateStep_keeps hk s _ _
    · rfl

theorem poursNow_keeps (r : StepRec) : k (poursNow r s) = k s := by
  unfold poursNow; dsimp only; split
  · rw [openAtCap_keeps hk, topOff_keeps hk]
  · exact topOff_keeps hk s _

theorem activate_keeps (r : StepRec) : k (activate r s) = k s := by
  unfold activate; rw [poursNow_keeps hk, hk.account, setStepState_keeps hk]

theorem returnActive_keeps (r : StepRec) : k (returnActive r s) = k s := by
  unfold returnActive; rw [poursNow_keeps hk, setStepState_keeps hk]

theorem testSpout_keeps (sp : Spout) : k (testSpout sp s).1 = k s := by
  unfold testSpout; split
  · rfl
  · split
    · split
      · exact enterDone_keeps hk s _
      · split
        · exact activate_keeps hk s _
        · rfl
    · split
      · split
        · exact returnActive_keeps hk s _
        · rfl
      · rfl

theorem activationRounds_keeps (fuel : Nat) : k (activationRounds fuel s) = k s := by
  induction fuel generalizing s with
  | zero => rfl
  | succ fuel ih =>
    unfold activationRounds; dsimp only; split
    · rw [ih, testSpout_keeps hk, testSpout_keeps hk]
    · rw [testSpout_keeps hk, testSpout_keeps hk]

/-- The activation test writes nothing but orders, the plan, the account steps, the stacks, bills and notices. -/
theorem activationTest_keeps : k (activationTest s) = k s := activationRounds_keeps hk s _

theorem leaveHold_keeps (sp : Spout) : k (leaveHold sp s) = k s := by
  unfold leaveHold; split
  · split
    · exact setStepState_keeps hk s _ _
    · rfl
  · rfl

end Plan

/-! ## The pour block -/

section Block
variable (hk : KeepsBlock k) (s : State)
include hk

theorem answerEntry_keeps (e : RelayEntry) (a : Answer) : k (answerEntry e a s) = k s := by
  unfold answerEntry; rw [hk.sport, hk.relayQueue]

theorem refuseEntry_keeps (c : Code) (x : Byte) (e : RelayEntry) : k (refuseEntry c x e s) = k s :=
  answerEntry_keeps hk s _ _

theorem preempt_keeps (p : RelayEntry → Bool) (c : Code) (x : Byte) : k (preempt p c x s) = k s :=
  keeps_foldl _ (fun t e => refuseEntry_keeps hk t c x e) _ _

theorem evaluateBlock_keeps (was : Bool) (sp : Spout) : k (evaluateBlock was sp s) = k s := by
  unfold evaluateBlock; split
  · dsimp only; rw [holdStep_keeps hk.toKeepsPlan]; split
    · exact closeUnlessClosed_keeps hk.toKeepsPlan s _
    · rw [preempt_keeps hk, closeUnlessClosed_keeps hk.toKeepsPlan]
  · rfl

theorem tellSpout_keeps (before : State) (sp : Spout) : k (tellSpout before sp s) = k s := by
  unfold tellSpout; split
  · rfl
  · dsimp only
    rw [leaveHold_keeps hk.toKeepsPlan]
    have h1 : k (if enteredLost before s sp then preempt (isMoveOf sp) .spoutLost sp.byte (postStop sp s) else s) = k s := by
      split
      · rw [preempt_keeps hk, postStop_keeps hk.toKeepsPlan]
      · rfl
    generalize (if enteredLost before s sp then preempt (isMoveOf sp) .spoutLost sp.byte (postStop sp s) else s) = u at h1 ⊢
    split <;> split <;>
      simp only [setNotice_keeps hk.toKeepsPlan, evaluateBlock_keeps hk, h1]

theorem tcuKnown_keeps (before : State) : k (tcuKnown before s) = k s := by
  unfold tcuKnown; dsimp only; split
  · rw [tellSpout_keeps hk, tellSpout_keeps hk]
  · rw [activationTest_keeps hk.toKeepsPlan, tellSpout_keeps hk, tellSpout_keeps hk]

end Block

/-! ## The TCU -/

section Travel
variable (hk : KeepsTravel k) (s : State)
include hk

theorem setSpout_keeps (sp : Spout) (r : SpoutRec) : k (setSpout sp r s) = k s := hk.spouts _ _

theorem setZoneOwner_keeps (i : ZoneIx) (o : Option Spout) : k (setZoneOwner i o s) = k s := hk.zones _ _

theorem releaseZone_keeps (sp : Spout) (i : ZoneIx) : k (releaseZone sp i s) = k s := by
  unfold releaseZone; split
  · exact setZoneOwner_keeps hk s _ _
  · rfl

theorem testOverreach_keeps (sp : Spout) : k (testOverreach sp s) = k s := setSpout_keeps hk s _ _

theorem acceptMove_keeps (sp : Spout) (cls : MoveClass) (i : ZoneIx) : k (acceptMove sp cls i s) = k s := by
  unfold acceptMove; split
  · rfl
  all_goals
    dsimp only
    rw [tcuKnown_keeps hk.toKeepsBlock, testOverreach_keeps hk, setSpout_keeps hk]
    exact setZoneOwner_keeps hk s _ _

theorem dropTarget_keeps (sp : Spout) : k (dropTarget sp s) = k s := by
  unfold dropTarget; dsimp only
  rw [setSpout_keeps hk]; split
  · rfl
  · exact releaseZone_keeps hk s _ _

theorem undoMove_keeps (sp : Spout) (b : Byte) : k (undoMove sp b s) = k s := by
  unfold undoMove; dsimp only; split
  · rw [tcuKnown_keeps hk.toKeepsBlock, testOverreach_keeps hk, setSpout_keeps hk, dropTarget_keeps hk]
  · rfl

theorem withdrawMove_keeps (e : RelayEntry) : k (withdrawMove e s) = k s := by
  unfold withdrawMove; split
  · exact undoMove_keeps hk s _ _
  · rfl

theorem becomeLost_keeps (sp : Spout) (c : LostCause) : k (becomeLost sp c s) = k s := setSpout_keeps hk s _ _

theorem placeSpout_keeps (sp : Spout) (p : Position) : k (placeSpout sp p s) = k s := by
  unfold placeSpout; dsimp only; split
  · split
    · rw [setSpout_keeps hk]; exact setZoneOwner_keeps hk s _ _
    · exact becomeLost_keeps hk s _ _
  · split
    · rfl
    · exact becomeLost_keeps hk s _ _
  · split
    · unfold arrive; dsimp only; rw [setSpout_keeps hk]; split
      · rfl
      · exact releaseZone_keeps hk s _ _
    · split
      · rfl
      · split
        · rfl
        · rw [becomeLost_keeps hk, dropTarget_keeps hk]
  · split
    · exact setSpout_keeps hk s _ _
    · rfl

theorem positionAnswer_keeps (sp : Spout) (p : Position) (fl : Byte) : k (positionAnswer sp p fl s) = k s := by
  unfold positionAnswer; dsimp only
  rw [tcuKnown_keeps hk.toKeepsBlock, testOverreach_keeps hk, placeSpout_keeps hk, setSpout_keeps hk]

theorem missedPoll_keeps (sp : Spout) : k (missedPoll sp s) = k s := by
  unfold missedPoll; dsimp only
  generalize (if 3 ≤ (s.spouts.get sp).missed then 3 else (s.spouts.get sp).missed + 1) = n
  split
  · rw [tcuKnown_keeps hk.toKeepsBlock, testOverreach_keeps hk, becomeLost_keeps hk]; split
    · rw [dropTarget_keeps hk, setSpout_keeps hk]
    · exact setSpout_keeps hk s _ _
  · exact setSpout_keeps hk s _ _

end Travel

/-! ## The arbiter -/

section Line
variable (hk : KeepsLine k) (s : State)
include hk

theorem startTransaction_keeps (w : Work) (st kd : Byte) (p : List Byte) : k (startTransaction w st kd p s) = k s :=
  hk.line _ _

theorem gateOnLine_keeps (sp : Spout) (x : Setting) (c : Carrier) : k (gateOnLine sp x c s) = k s := by
  unfold gateOnLine; rw [activationTest_keeps hk.toKeepsPlan]; exact hk.gates _ _

theorem startOrder_keeps (o : OrderKind) (p : Poster) (st : Byte) (n : Nat) : k (startOrder o p st n s) = k s := by
  unfold startOrder; dsimp only; split
  · unfold gateOrdered; split
    · exact startTransaction_keeps hk s _ _ _ _
    · rw [gateOnLine_keeps hk, startTransaction_keeps hk]
  · exact startTransaction_keeps hk s _ _ _ _

theorem startPoll_keeps (p : Poll) : k (startPoll p s) = k s := by
  unfold startPoll; rw [startTransaction_keeps hk]; exact (hk.line _ _).trans (hk.polls _ _)

theorem startRelay_keeps (e : RelayEntry) (b : RelayBody) : k (startRelay e b s) = k s := by
  have h : ∀ q, k (setLastServed .relays (s.withRelayQueue q)) = k s := fun q =>
    (hk.line _ _).trans (hk.relayQueue _ _)
  unfold startRelay; dsimp only; split
  · rw [gateOnLine_keeps hk, startTransaction_keeps hk, h]
  · rw [startTransaction_keeps hk, h]

theorem arbiterRun_keeps (fuel : Nat) : k (arbiterRun fuel s) = k s := by
  induction fuel generalizing s with
  | zero => rfl
  | succ fuel ih =>
    unfold arbiterRun; split
    · rw [startOrder_keeps hk]; exact hk.orders _ _
    · split
      · exact startPoll_keeps hk s _
      · split
        · exact startRelay_keeps hk s _ _
        · rw [ih, withdrawMove_keeps hk.toKeepsTravel, refuseEntry_keeps hk.toKeepsBlock]
      · exact startPoll_keeps hk s _
      · rfl

/-- The arbiter writes nothing but the field line, its queues, gate records, relay entries and what follows from a
withdrawn MOVE. -/
theorem arbitrate_keeps : k (arbitrate s) = k s := by
  unfold arbitrate; split
  · exact arbiterRun_keeps hk s _
  · rfl

end Line

/-! ## DMON -/

section Dust
variable (hk : KeepsDust k) (s : State)
include hk

theorem pollDue_keeps (p : Poll) : k (pollDue p s) = k s := by
  unfold pollDue; split
  · rfl
  · exact hk.polls _ _

theorem holdNotice_keeps (before : State) (h : Hold) : k (holdNotice before h s) = k s := by
  unfold holdNotice; split
  · split
    · exact setNotice_keeps hk.toKeepsPlan s _ _
    · exact setNotice_keeps hk.toKeepsPlan s _ _
    · rfl
  · rfl

theorem dustSpout_keeps (before : State) (sp : Spout) : k (dustSpout before sp s) = k s := by
  unfold dustSpout alarmReduce; split
  · split
    · split
      · rw [reduceTo_keeps hk.toKeepsPlan, evaluateBlock_keeps hk.toKeepsBlock]
      · exact evaluateBlock_keeps hk.toKeepsBlock s _ _
    · exact evaluateBlock_keeps hk.toKeepsBlock s _ _
  · exact evaluateBlock_keeps hk.toKeepsBlock s _ _

theorem dustKnown_keeps (before : State) : k (dustKnown before s) = k s := by
  unfold dustKnown; split
  · rfl
  · dsimp only
    rw [activationTest_keeps hk.toKeepsPlan, dustSpout_keeps hk, dustSpout_keeps hk]
    exact keeps_foldl _ (fun t h => holdNotice_keeps hk t before h) _ _

theorem setHead_keeps (i : HeadIx) (h : Head) : k (setHead i h s) = k s := hk.heads _ _

theorem changeHead_keeps (i : HeadIx) (h : Head) : k (changeHead i h s) = k s := by
  unfold changeHead; dsimp only; split
  · exact setHead_keeps hk s _ _
  · rw [dustKnown_keeps hk]; exact (hk.holdDust _ _).trans (setHead_keeps hk s _ _)

theorem askDust_keeps (i : HeadIx) : k (askDust i s) = k s := by
  unfold askDust; rw [pollDue_keeps hk]; exact hk.cycle _ _

theorem openCycle_keeps : k (openCycle s) = k s := by
  unfold openCycle; rw [hk.cycle, hk.heads]

theorem startCycle_keeps : k (startCycle s) = k s := by
  unfold startCycle; split
  · rw [askDust_keeps hk, openCycle_keeps hk]
  · rw [hk.cycle, openCycle_keeps hk]

theorem nextInCycle_keeps : k (nextInCycle s) = k s := by
  unfold nextInCycle; split
  · exact askDust_keeps hk s _
  · unfold endCycle; split
    · exact startCycle_keeps hk s
    · exact hk.cycle _ _

theorem markSampled_keeps (i : HeadIx) : k (markSampled i s) = k s := by
  unfold markSampled; rw [setHead_keeps hk, hk.cycle]

theorem applyOutcome_keeps (i : HeadIx) (o : Option Word16) : k (applyOutcome i o s) = k s := by
  unfold applyOutcome; split
  · exact changeHead_keeps hk s _ _
  · rw [changeHead_keeps hk]; split
    · exact setNotice_keeps hk.toKeepsPlan s _ _
    · rfl

theorem dustReport_keeps (i : HeadIx) (o : Option Word16) : k (dustReport i o s) = k s := by
  unfold dustReport; rw [nextInCycle_keeps hk, applyOutcome_keeps hk, markSampled_keeps hk]

theorem cycleExpiry_keeps : k (cycleExpiry s) = k s := by
  unfold cycleExpiry reloadCycle; split
  · rw [startCycle_keeps hk, hk.cycle]
  · rw [setNotice_keeps hk.toKeepsPlan, hk.cycle, hk.cycle]

end Dust

end Sys2Proof.Machine
end

