-- ==== Sys2Proof/Laws/BlockWork.lean ====
section
/-! SUPPORT. What the blocks can do to the part inside an event, said once: every operation of theirs is a chain of the
links of `BlockWork`, so a property that the links keep is kept by all of them. -/

namespace Sys2Proof.Machine

/-- Only the line, spout records, heads, cycle, hold dust states, gate records, account steps, stacks, baselines and the
run records differ. -/
structure InnerChange (s t : State) : Prop where
  pending : t.pending = s.pending
  freeCount : t.freeCount = s.freeCount
  pins : t.pins = s.pins
  sport : t.sport = s.sport
  orders : t.orders = s.orders
  polls : t.polls = s.polls
  timers : t.timers = s.timers
  settings : t.settings = s.settings
  stations : t.stations = s.stations
  relayQueue : t.relayQueue = s.relayQueue
  zones : t.zones = s.zones
  freeboard : t.freeboard = s.freeboard
  console : t.console = s.console
  plan : t.plan = s.plan
  stepCounter : t.stepCounter = s.stepCounter
  bills : t.bills = s.bills
  unbilled : t.unbilled = s.unbilled
  clock : t.clock = s.clock
  notices : t.notices = s.notices

/-- A relay entry goes on the line with the body its recheck gave. -/
def markOnLine (tag : Byte) (body : RelayBody) (s : State) : State :=
  s.withRelayQueue (s.relayQueue.map fun x => if x.tag = tag then { x with body, onLine := true } else x)

/-- The work of the blocks inside an event, link by link. -/
inductive BlockWork : State → State → Prop
  | refl (s : State) : BlockWork s s
  | trans {s t u : State} : BlockWork s t → BlockWork t u → BlockWork s u
  | inner {s t : State} : InnerChange s t → BlockWork s t
  | post (s : State) (o : Order) : BlockWork s (postOrder o s)
  | takeOrder {s : State} {o : Order} {rest : List Order} : s.orders = o :: rest → BlockWork s (s.withOrders rest)
  | due (s : State) (p : Poll) : BlockWork s (pollDue p s)
  | takePoll (s : State) (p : Poll) : BlockWork s (s.withPolls (s.polls.erase p))
  | owner (s : State) (i : ZoneIx) (o : Option Spout) : BlockWork s (setZoneOwner i o s)
  | answer {s : State} {e : RelayEntry} (a : Answer) : e ∈ s.relayQueue → BlockWork s (answerEntry e a s)
  | preempt (s : State) (p : RelayEntry → Bool) (c : Code) (x : Byte) : BlockWork s (preempt p c x s)
  | mark (s : State) (tag : Byte) (body : RelayBody) : BlockWork s (markOnLine tag body s)
  | step (s : State) (n : Word16) {f : StepRec → StepRec} : (∀ r, (f r).number = r.number) →
      BlockWork s (updateStep n f s)
  | join {s : State} {mk : Word16 → StepRec} {place : StepRec → List StepRec → List StepRec} :
      s.plan.length < Config.planRecords → (∀ n, (mk n).number = n) → (∀ x l, (place x l).Perm (x :: l)) →
      BlockWork s (joinPlan mk place s)
  | countDone (s : State) : BlockWork s (countDoneStep s)
  | addHold (s : State) (h : Hold) (d : Word32) : BlockWork s (updateOpenBill (fun b => b.addHold h d) s)
  | addUnplaced (s : State) (d : Word32) : BlockWork s (updateOpenBill (fun b => b.addUnplaced d) s)
  | addUnbilled (s : State) (d : Word32) : BlockWork s (s.withUnbilled (s.unbilled + d))
  | notice (s : State) (n : Notice) (v : Word16) : BlockWork s (setNotice n v s)

namespace BlockWork

theorem foldl {α : Type} {f : State → α → State} (h : ∀ s a, BlockWork s (f s a)) (l : List α) (s : State) :
    BlockWork s (l.foldl f s) := by
  induction l generalizing s with
  | nil => exact refl s
  | cons a l ih => exact (h s a).trans (ih _)

end BlockWork

open BlockWork

variable (s : State)

/-! ## Inner writers -/

theorem setSpout_work (sp : Spout) (r : SpoutRec) : BlockWork s (setSpout sp r s) := inner (by constructor <;> rfl)
theorem setGate_work (sp : Spout) (r : GateRec) : BlockWork s (setGate sp r s) := inner (by constructor <;> rfl)
theorem withStack_work (x : StackUnit) : BlockWork s (s.withStack x) := inner (by constructor <;> rfl)
theorem withAccount_work (x : Pair (Option Word16)) : BlockWork s (s.withAccount x) := inner (by constructor <;> rfl)
theorem withCycle_work (x : Cycle) : BlockWork s (s.withCycle x) := inner (by constructor <;> rfl)
theorem withHeads_work (x : Vector Head 16) : BlockWork s (s.withHeads x) := inner (by constructor <;> rfl)
theorem withHoldDust_work (x : Vector Dust 9) : BlockWork s (s.withHoldDust x) := inner (by constructor <;> rfl)
theorem withLine_work (x : FieldLine) : BlockWork s (s.withLine x) := inner (by constructor <;> rfl)
theorem withRunc_work (x : RunControl) : BlockWork s (s.withRunc x) := inner (by constructor <;> rfl)
theorem withBaselines_work (x : Pair Baseline) : BlockWork s (s.withBaselines x) := inner (by constructor <;> rfl)

/-! ## Postings and polls -/

theorem postGate_work (sp : Spout) (x : Setting) : BlockWork s (postGate sp x s) := by
  unfold postGate; split
  · exact post s _
  · exact refl s

theorem postStop_work (sp : Spout) : BlockWork s (postStop sp s) := by
  unfold postStop; split
  · exact post s _
  · exact refl s

theorem closeUnlessClosed_work (sp : Spout) : BlockWork s (closeUnlessClosed sp s) := by
  unfold closeUnlessClosed; split
  · exact refl s
  · exact postGate_work s sp 0

theorem reduceTo_work (sp : Spout) (c : Setting) : BlockWork s (reduceTo sp c s) := by
  unfold reduceTo; split
  · split
    · exact postGate_work s sp c
    · exact refl s
  · exact refl s

theorem openAtCap_work (sp : Spout) : BlockWork s (openAtCap sp s) := by
  unfold openAtCap; split
  · exact postGate_work s sp _
  · exact refl s

theorem positionDue_work (sp : Spout) : BlockWork s (positionDue sp s) := by
  unfold positionDue; split
  · exact due s _
  · exact refl s

theorem scaleDue_work (sp : Spout) : BlockWork s (scaleDue sp s) := by
  unfold scaleDue; split
  · exact due s _
  · exact refl s

theorem positionPolls_work : BlockWork s (positionPolls s) := foldl (fun t sp => positionDue_work t sp) _ _

theorem scalePolls_work : BlockWork s (scalePolls s) := foldl (fun t sp => scaleDue_work t sp) _ _

/-! ## Steps, stacks and the activation test -/

theorem setStepState_work (n : Word16) (x : StepState) : BlockWork s (setStepState n x s) := BlockWork.step s n fun _ => rfl

theorem holdStep_work (sp : Spout) : BlockWork s (holdStep sp s) := by
  unfold holdStep; split
  · exact setStepState_work s _ _
  · exact refl s

theorem insertBefore_perm (n : Word16) (x : StepRec) (l : List StepRec) : (insertBefore n x l).Perm (x :: l) := by
  induction l with
  | nil => exact List.Perm.refl _
  | cons r l ih =>
    unfold insertBefore; split
    · exact List.Perm.refl _
    · exact (List.Perm.cons r ih).trans (List.Perm.swap x r l)

theorem createTrimAtTail_work (sp : Spout) (r : TrimRequest) (h : s.plan.length < Config.planRecords) :
    BlockWork s (createTrimAtTail sp r s) :=
  join h (fun _ => rfl) fun x l => List.perm_append_singleton x l

theorem pushEntry_work (sp : Spout) (e : StackEntry) : BlockWork s (pushEntry sp e s) := by
  unfold pushEntry; split <;> exact withStack_work s _

theorem closeUnlessClosed_plan (sp : Spout) : (closeUnlessClosed sp s).plan = s.plan := by
  unfold closeUnlessClosed postClose postGate postOrder; split
  · rfl
  · split <;> rfl

theorem pushEntry_plan (sp : Spout) (e : StackEntry) : (pushEntry sp e s).plan = s.plan := by
  unfold pushEntry; split <;> rfl

theorem setStepState_length (n : Word16) (x : StepState) : (setStepState n x s).plan.length = s.plan.length := by
  simp [setStepState, updateStep]

theorem pushRunning_work (sp : Spout) (r : StepRec) (req : TrimRequest) (h : s.plan.length < Config.planRecords) :
    BlockWork s (pushRunning sp r req s) := by
  unfold pushRunning; dsimp only
  refine (pushEntry_work s sp { suspended := r.number, trim := nextNumber s }).trans
    ((setStepState_work _ r.number .suspended).trans ?_)
  have h2 : (setStepState r.number .suspended
      (pushEntry sp { suspended := r.number, trim := nextNumber s } s)).plan.length < Config.planRecords := by
    rw [setStepState_length, pushEntry_plan]; exact h
  split
  · refine (closeUnlessClosed_work _ _).trans (join ?_ (fun _ => rfl) fun x l => insertBefore_perm _ x l)
    rw [closeUnlessClosed_plan]; exact h2
  · exact join h2 (fun _ => rfl) fun x l => insertBefore_perm _ x l

theorem setLatch_work (sp : Spout) (r : TrimRequest) : BlockWork s (setLatch sp r s) := withStack_work s _

theorem clearLatch_work (sp : Spout) : BlockWork s (clearLatch sp s) := withStack_work s _

theorem serveLatch_work (sp : Spout) : BlockWork s (serveLatch sp s) := by
  unfold serveLatch; split
  · exact refl s
  · split
    · exact (clearLatch_work s _).trans (notice _ _ _)
    · rename_i h
      have h : s.plan.length < Config.planRecords := Nat.lt_of_not_le h
      dsimp only
      split
      · exact (pushRunning_work s _ _ _ h).trans ((clearLatch_work _ _).trans (notice _ _ _))
      · exact (createTrimAtTail_work s _ _ h).trans ((clearLatch_work _ _).trans (notice _ _ _))

theorem serveShared_work : BlockWork s (serveShared s) := by
  unfold serveShared; split
  · dsimp only; split
    · exact (serveLatch_work s _).trans (serveLatch_work _ _)
    · exact serveLatch_work s _
  · exact refl s

theorem dropTop_work (sp : Spout) : BlockWork s (dropTop sp s) := by
  unfold dropTop; split
  · split <;> exact withStack_work s _
  · exact withStack_work s _

theorem markDone_work (n : Word16) : BlockWork s (markDone n s) :=
  (setStepState_work s n .done).trans ((notice _ _ _).trans (countDone _))

theorem popCascade_work (sp : Spout) (fuel : Nat) (n : Word16) : BlockWork s (popCascade sp fuel n s) := by
  induction fuel generalizing n s with
  | zero => exact refl s
  | succ fuel ih =>
    unfold popCascade; split
    · exact refl s
    · split
      · dsimp only
        rename_i e _ _
        refine (dropTop_work s sp).trans ((setStepState_work _ e.suspended .waiting).trans ?_)
        split
        · exact refl _
        · rename_i r _
          split
          · refine (markDone_work _ r.number).trans ?_
            split
            · exact ih _ _
            · exact refl _
          · exact refl _
      · exact refl s

theorem trimEnded_work (sp : Spout) (n : Word16) : BlockWork s (trimEnded sp n s) := by
  unfold trimEnded; dsimp only
  split
  · refine (popCascade_work s sp 4 n).trans ?_
    split
    · exact (serveLatch_work _ _).trans (serveShared_work _)
    · exact serveShared_work _
  · refine (popCascade_work s sp 4 n).trans ?_
    split
    · exact serveLatch_work _ _
    · exact refl _

theorem afterEnd_work (r : StepRec) : BlockWork s (afterEnd r s) := by
  unfold afterEnd; split
  · exact trimEnded_work s _ _
  · exact refl s

theorem enterDone_work (r : StepRec) : BlockWork s (enterDone r s) := by
  unfold enterDone; dsimp only
  refine (setStepState_work s r.number .done).trans ?_
  split
  · exact (closeUnlessClosed_work _ _).trans ((notice _ _ _).trans ((countDone _).trans (afterEnd_work _ _)))
  · exact (notice _ _ _).trans ((countDone _).trans (afterEnd_work _ _))

theorem topOff_work (n : Word16) : BlockWork s (topOff n s) := by
  unfold topOff; split
  · exact refl s
  · split
    · dsimp only
      refine (BlockWork.step s n (f := fun q => { q with inTopOff := true }) fun _ => rfl).trans ?_
      split
      · exact reduceTo_work _ _ _
      · exact refl _
    · exact refl s

theorem poursNow_work (r : StepRec) : BlockWork s (poursNow r s) := by
  unfold poursNow; dsimp only; split
  · exact (topOff_work s _).trans (openAtCap_work _ _)
  · exact topOff_work s _

theorem activate_work (r : StepRec) : BlockWork s (activate r s) :=
  (setStepState_work s _ _).trans ((withAccount_work _ _).trans (poursNow_work _ _))

theorem returnActive_work (r : StepRec) : BlockWork s (returnActive r s) :=
  (setStepState_work s _ _).trans (poursNow_work _ _)

theorem testSpout_work (sp : Spout) : BlockWork s (testSpout sp s).1 := by
  unfold testSpout; split
  · exact refl s
  · split
    · split
      · exact enterDone_work s _
      · split
        · exact activate_work s _
        · exact refl s
    · split
      · split
        · exact returnActive_work s _
        · exact refl s
      · exact refl s

theorem activationRounds_work (fuel : Nat) : BlockWork s (activationRounds fuel s) := by
  induction fuel generalizing s with
  | zero => exact refl s
  | succ fuel ih =>
    unfold activationRounds; dsimp only
    refine (testSpout_work s .a).trans ((testSpout_work _ .b).trans ?_)
    split
    · exact ih _
    · exact refl _

theorem activationTest_work : BlockWork s (activationTest s) := activationRounds_work s _

theorem leaveHold_work (sp : Spout) : BlockWork s (leaveHold sp s) := by
  unfold leaveHold; split
  · split
    · exact setStepState_work s _ _
    · exact refl s
  · exact refl s

/-! ## The pour block and the TCU -/

theorem evaluateBlock_work (was : Bool) (sp : Spout) : BlockWork s (evaluateBlock was sp s) := by
  unfold evaluateBlock; split
  · dsimp only
    refine (closeUnlessClosed_work s sp).trans ?_
    split
    · exact holdStep_work _ _
    · exact (BlockWork.preempt _ _ _ _).trans (holdStep_work _ _)
  · exact refl s

theorem tellSpout_work (before : State) (sp : Spout) : BlockWork s (tellSpout before sp s) := by
  unfold tellSpout; split
  · exact refl s
  · dsimp only
    refine BlockWork.trans (t := if enteredLost before s sp then
      preempt (isMoveOf sp) .spoutLost sp.byte (postStop sp s) else s) ?_
        ((evaluateBlock_work _ (blocked before sp) sp).trans ?_)
    · split
      · exact (postStop_work s sp).trans (BlockWork.preempt _ _ _ _)
      · exact refl s
    · generalize (if enteredLost before s sp then preempt (isMoveOf sp) .spoutLost sp.byte (postStop sp s) else s) = u
      split <;> split
      · exact (notice _ _ _).trans ((notice _ _ _).trans (leaveHold_work _ _))
      · exact (notice _ _ _).trans (leaveHold_work _ _)
      · exact (notice _ _ _).trans (leaveHold_work _ _)
      · exact leaveHold_work _ _

theorem tcuKnown_work (before : State) : BlockWork s (tcuKnown before s) := by
  unfold tcuKnown; dsimp only; split
  · exact (tellSpout_work s _ _).trans (tellSpout_work _ _ _)
  · exact (tellSpout_work s _ _).trans ((tellSpout_work _ _ _).trans (activationTest_work _))

theorem releaseZone_work (sp : Spout) (i : ZoneIx) : BlockWork s (releaseZone sp i s) := by
  unfold releaseZone; split
  · exact owner s _ _
  · exact refl s

theorem testOverreach_work (sp : Spout) : BlockWork s (testOverreach sp s) := setSpout_work s _ _

theorem acceptMove_work (sp : Spout) (cls : MoveClass) (i : ZoneIx) : BlockWork s (acceptMove sp cls i s) := by
  unfold acceptMove; split
  · exact refl s
  all_goals
    exact (owner s i (some sp)).trans
      ((setSpout_work _ _ _).trans ((testOverreach_work _ _).trans (tcuKnown_work _ _)))

theorem dropTarget_work (sp : Spout) : BlockWork s (dropTarget sp s) := by
  unfold dropTarget; dsimp only; split
  · exact setSpout_work s _ _
  · exact (releaseZone_work s _ _).trans (setSpout_work _ _ _)

theorem undoMove_work (sp : Spout) (b : Byte) : BlockWork s (undoMove sp b s) := by
  unfold undoMove; dsimp only; split
  · exact (dropTarget_work s sp).trans
      ((setSpout_work _ _ _).trans ((testOverreach_work _ _).trans (tcuKnown_work _ _)))
  · exact refl s

theorem withdrawMove_work (e : RelayEntry) : BlockWork s (withdrawMove e s) := by
  unfold withdrawMove; split
  · exact undoMove_work s _ _
  · exact refl s

theorem becomeLost_work (sp : Spout) (c : LostCause) : BlockWork s (becomeLost sp c s) := setSpout_work s _ _

theorem arrive_work (sp : Spout) : BlockWork s (arrive sp s) := by
  unfold arrive; dsimp only; split
  · exact setSpout_work s _ _
  · exact (releaseZone_work s _ _).trans (setSpout_work _ _ _)

theorem placeSpout_work (sp : Spout) (p : Position) : BlockWork s (placeSpout sp p s) := by
  unfold placeSpout; dsimp only; split
  · split
    · exact (owner s _ _).trans (setSpout_work _ _ _)
    · exact becomeLost_work s _ _
  · split
    · exact refl s
    · exact becomeLost_work s _ _
  · split
    · exact arrive_work s sp
    · split
      · exact refl s
      · split
        · exact refl s
        · exact (dropTarget_work s sp).trans (becomeLost_work _ _ _)
  · split
    · exact setSpout_work s _ _
    · exact refl s

theorem positionAnswer_work (sp : Spout) (p : Position) (fl : Byte) : BlockWork s (positionAnswer sp p fl s) :=
  (setSpout_work s sp _).trans ((placeSpout_work _ _ _).trans ((testOverreach_work _ _).trans (tcuKnown_work _ _)))

theorem missedPoll_work (sp : Spout) : BlockWork s (missedPoll sp s) := by
  unfold missedPoll; dsimp only
  generalize (if 3 ≤ (s.spouts.get sp).missed then 3 else (s.spouts.get sp).missed + 1) = n
  split
  · refine (setSpout_work s sp { s.spouts.get sp with missed := n }).trans ?_
    split
    · exact (dropTarget_work _ _).trans
        ((becomeLost_work _ _ _).trans ((testOverreach_work _ _).trans (tcuKnown_work _ _)))
    · exact (becomeLost_work _ _ _).trans ((testOverreach_work _ _).trans (tcuKnown_work _ _))
  · exact setSpout_work s _ _

/-! ## HALT entry and gate outcomes -/

theorem preemptHalted_work : BlockWork s (preemptHalted s) :=
  (BlockWork.preempt s _ _ _).trans (foldl (fun t e => withdrawMove_work t e) _ _)

theorem haltSpout_work (before : State) (sp : Spout) : BlockWork s (haltSpout before sp s) := by
  unfold haltSpout; split
  · dsimp only; split
    · exact closeUnlessClosed_work s _
    · exact (closeUnlessClosed_work s _).trans (holdStep_work _ _)
  · exact refl s

theorem haltEntry_work (c : HaltCause) : BlockWork s (haltEntry c s) :=
  (withRunc_work s _).trans ((post _ _).trans ((withRunc_work _ _).trans ((haltSpout_work _ _ _).trans
    ((haltSpout_work _ _ _).trans ((preemptHalted_work _).trans (notice _ _ _))))))

theorem closeFailed_work : BlockWork s (closeFailed s) := by
  unfold closeFailed; split
  · exact haltEntry_work s _
  · exact refl s

theorem gateOrderFailed_work (sp : Spout) (x : Setting) : BlockWork s (gateOrderFailed sp x s) := by
  unfold gateOrderFailed; dsimp only
  refine (setGate_work s sp { s.gates.get sp with state := .rest .unsure }).trans
    ((notice _ .gateUnsure (subjectSpout sp)).trans ?_)
  split
  · exact (closeFailed_work _).trans (activationTest_work _)
  · exact (postGate_work _ _ _).trans (activationTest_work _)

theorem confirmGate_work (sp : Spout) (x : Setting) : BlockWork s (confirmGate sp x s) :=
  (setGate_work s _ _).trans (activationTest_work _)

theorem relayGateFailed_work (sp : Spout) : BlockWork s (relayGateFailed sp s) := by
  unfold relayGateFailed; split
  · exact (setGate_work s _ _).trans (activationTest_work _)
  · exact refl s

/-! ## DMON -/

theorem setHead_work (i : HeadIx) (h : Head) : BlockWork s (setHead i h s) := withHeads_work s _

theorem holdNotice_work (before : State) (h : Hold) : BlockWork s (holdNotice before h s) := by
  unfold holdNotice; split
  · split
    · exact notice s _ _
    · exact notice s _ _
    · exact refl s
  · exact refl s

theorem dustSpout_work (before : State) (sp : Spout) : BlockWork s (dustSpout before sp s) := by
  unfold dustSpout alarmReduce
  refine (evaluateBlock_work s (blocked before sp) sp).trans ?_
  split
  · split
    · split
      · exact reduceTo_work _ _ _
      · exact refl _
    · exact refl _
  · exact refl _

theorem dustKnown_work (before : State) : BlockWork s (dustKnown before s) := by
  unfold dustKnown; split
  · exact refl s
  · exact (foldl (fun t h => holdNotice_work t before h) _ _).trans
      ((dustSpout_work _ _ _).trans ((dustSpout_work _ _ _).trans (activationTest_work _)))

theorem changeHead_work (i : HeadIx) (h : Head) : BlockWork s (changeHead i h s) := by
  unfold changeHead; dsimp only; split
  · exact setHead_work s _ _
  · exact (setHead_work s _ _).trans ((withHoldDust_work _ _).trans (dustKnown_work _ _))

theorem askDust_work (i : HeadIx) : BlockWork s (askDust i s) := (withCycle_work s _).trans (due _ _)

theorem openCycle_work : BlockWork s (openCycle s) := (withHeads_work s _).trans (withCycle_work _ _)

theorem startCycle_work : BlockWork s (startCycle s) := by
  unfold startCycle; split
  · exact (openCycle_work s).trans (askDust_work _ _)
  · exact (openCycle_work s).trans (withCycle_work _ _)

theorem nextInCycle_work : BlockWork s (nextInCycle s) := by
  unfold nextInCycle; split
  · exact askDust_work s _
  · unfold endCycle; split
    · exact startCycle_work s
    · exact withCycle_work s _

theorem markSampled_work (i : HeadIx) : BlockWork s (markSampled i s) :=
  (withCycle_work s _).trans (setHead_work _ _ _)

theorem applyOutcome_work (i : HeadIx) (o : Option Word16) : BlockWork s (applyOutcome i o s) := by
  unfold applyOutcome; split
  · exact changeHead_work s _ _
  · refine BlockWork.trans ?_ (changeHead_work _ _ _)
    split
    · exact notice s _ _
    · exact refl s

theorem dustReport_work (i : HeadIx) (o : Option Word16) : BlockWork s (dustReport i o s) :=
  (markSampled_work s i).trans ((applyOutcome_work _ i o).trans (nextInCycle_work _))

theorem cycleExpiry_work : BlockWork s (cycleExpiry s) := by
  unfold cycleExpiry; split
  · exact (withCycle_work s _).trans (startCycle_work _)
  · exact (withCycle_work s _).trans ((withCycle_work _ _).trans (notice _ _ _))

/-! ## WBILL -/

theorem setBaseline_work (sp : Spout) (b : Baseline) : BlockWork s (setBaseline sp b s) := withBaselines_work s _

theorem creditStep_work (sp : Spout) (d : Word32) : BlockWork s (creditStep sp d s).1 := by
  unfold creditStep; split
  · exact refl s
  · rename_i n _
    dsimp only
    refine BlockWork.trans (BlockWork.step s n (f := fun r => { r with poured := satAdd32 r.poured d }) fun _ => rfl) ?_
    split
    · exact refl _
    · split
      · exact enterDone_work _ _
      · split
        · exact topOff_work _ _
        · exact refl _

theorem placeDelta_work (sp : Spout) (d : Word32) : BlockWork s (placeDelta sp d s) := by
  unfold placeDelta; split
  · split
    · exact addHold s _ d
    · exact (addUnplaced s d).trans (notice _ _ _)
  · exact (addUnbilled s d).trans (notice _ _ _)

theorem attribute_work (sp : Spout) (d : Word32) : BlockWork s (attributeDelta sp d s) := by
  unfold attributeDelta; dsimp only
  refine (creditStep_work s sp d).trans ((placeDelta_work _ sp d).trans ?_)
  split
  · exact activationTest_work _
  · exact refl _

theorem scaleReport_work (sp : Spout) (o : Option Word32) : BlockWork s (scaleReport sp o s) := by
  unfold scaleReport; split
  · exact refl s
  · rename_i v
    dsimp only; split
    · exact setBaseline_work s _ _
    · split
      · exact refl s
      · refine (setBaseline_work s sp { value := v, valid := true }).trans ?_
        split
        · exact attribute_work _ _ _
        · exact notice _ _ _

/-! ## FLM -/

theorem startTransaction_work (w : Work) (st kd : Byte) (p : List Byte) : BlockWork s (startTransaction w st kd p s) :=
  withLine_work s _

theorem gateOnLine_work (sp : Spout) (x : Setting) (c : Carrier) : BlockWork s (gateOnLine sp x c s) :=
  (setGate_work s _ _).trans (activationTest_work _)

theorem startOrder_work (o : OrderKind) (p : Poster) (st : Byte) (n : Nat) : BlockWork s (startOrder o p st n s) := by
  unfold startOrder; dsimp only
  refine (startTransaction_work s (.order o p n) st o.kindByte o.payload).trans ?_
  split
  · unfold gateOrdered; split
    · exact refl _
    · exact gateOnLine_work _ _ _ _
  · exact refl _

theorem startPoll_work (p : Poll) : BlockWork s (startPoll p s) :=
  (takePoll s p).trans ((withLine_work _ _).trans (startTransaction_work _ _ _ _ _))

theorem startRelay_work (e : RelayEntry) (b : RelayBody) : BlockWork s (startRelay e b s) := by
  unfold startRelay; dsimp only
  refine (mark s e.tag b).trans ((withLine_work _ { (markOnLine e.tag b s).line with lastServed := .relays }).trans
    ((startTransaction_work _ (.relay e.tag) e.dest b.kindByte b.payload).trans ?_))
  split
  · exact gateOnLine_work _ _ _ _
  · exact refl _

theorem oldestQueued_mem {e : RelayEntry} (h : oldestQueued s = some e) : e ∈ s.relayQueue :=
  List.mem_of_find?_eq_some h

theorem arbiterRun_work (fuel : Nat) : BlockWork s (arbiterRun fuel s) := by
  induction fuel generalizing s with
  | zero => exact refl s
  | succ fuel ih =>
    unfold arbiterRun; split
    · rename_i h
      exact (takeOrder h).trans (startOrder_work _ _ _ _ _)
    · split
      · exact startPoll_work s _
      · rename_i h _
        split
        · exact startRelay_work s _ _
        · exact (answer _ (oldestQueued_mem s h)).trans ((withdrawMove_work _ _).trans (ih _))
      · exact startPoll_work s _
      · exact refl s

theorem arbitrate_work : BlockWork s (arbitrate s) := by
  unfold arbitrate; split
  · exact arbiterRun_work s _
  · exact refl s

theorem pollReport_work (k : PollKind) (a : Option (List Byte)) : BlockWork s (pollReport k a s) := by
  unfold pollReport; split
  · split
    · exact positionAnswer_work s _ _ _
    · exact missedPoll_work s _
  · exact dustReport_work s _ _
  · exact scaleReport_work s _ _

theorem orderFailed_work (k : OrderKind) (st : Byte) : BlockWork s (orderFailed k st s) := by
  unfold orderFailed; split
  · exact notice s _ _
  · exact gateOrderFailed_work s _ _
  · exact refl s

theorem orderEnd_work (k : OrderKind) (p : Poster) (st : Byte) (n : Nat) (a : Option (List Byte)) :
    BlockWork s (orderEnd k p st n a s) := by
  unfold orderEnd; split
  · unfold orderOk; split
    · exact confirmGate_work s _ _
    · exact refl s
  · exact orderFailed_work s _ _
  · unfold attemptFailed; split
    · exact refl s
    · split
      · exact startOrder_work s _ _ _ _
      · exact orderFailed_work s _ _

theorem relayEnd_work (tag : Byte) (a : Option (List Byte)) : BlockWork s (relayEnd tag a s) := by
  unfold relayEnd; split
  · exact refl s
  · rename_i e h
    refine (answer (relayAnswer e a) (List.mem_of_find?_eq_some h)).trans ?_
    unfold relayOutcome; split
    · split
      · exact refl _
      · exact undoMove_work _ _ _
    · split
      · exact confirmGate_work _ _ _
      · exact relayGateFailed_work _ _
    · exact refl _

theorem endTransaction_work (t : Transaction) (a : Option (List Byte)) : BlockWork s (endTransaction t a s) := by
  unfold endTransaction; dsimp only
  refine BlockWork.trans (t := setEngine .free s) (withLine_work s _) ?_
  refine BlockWork.trans ?_ (arbitrate_work _)
  split
  · exact pollReport_work _ _ _
  · exact orderEnd_work _ _ _ _ _ _
  · exact relayEnd_work _ _ _

/-- A field answer that is handed to the FLM, matched or not. -/
theorem matchAnswer_work (f : Frame) : BlockWork s (matchAnswer f s) := by
  unfold matchAnswer; split
  · split
    · exact endTransaction_work s _ _
    · exact refl s
  · exact refl s

theorem allStopSent_work : BlockWork s (allStopSent s) := by
  unfold allStopSent; split
  · exact refl s
  · exact withRunc_work s _

theorem fieldFrameEnd_work : BlockWork s (fieldFrameEnd s) := by
  unfold fieldFrameEnd; split
  · split
    · exact ((withLine_work s _).trans (allStopSent_work _)).trans (arbitrate_work _)
    · exact withLine_work s _
  · exact refl s

theorem replyTimerEnd_work : BlockWork s (replyTimerEnd s) := by
  unfold replyTimerEnd; split
  · exact endTransaction_work s _ _
  · exact refl s

end Sys2Proof.Machine
end

