-- ==== Sys2Proof/Laws/Kept.lean ====
section
/-! SUPPORT. What `BlockWork` keeps: the fields no block writes inside an event, and each property of Safety. -/

namespace Sys2Proof.Machine

/-! ## Fields that stay -/

/-- The fields that only commands write. -/
structure SameOuter (s t : State) : Prop where
  pending : t.pending = s.pending
  freeCount : t.freeCount = s.freeCount
  pins : t.pins = s.pins
  timers : t.timers = s.timers
  settings : t.settings = s.settings
  stations : t.stations = s.stations
  freeboard : t.freeboard = s.freeboard
  console : t.console = s.console
  clock : t.clock = s.clock
  limit : t.zones.limit = s.zones.limit
  mask : t.notices.mask = s.notices.mask

theorem SameOuter.refl (s : State) : SameOuter s s := by constructor <;> rfl

theorem SameOuter.trans {s t u : State} (h : SameOuter s t) (k : SameOuter t u) : SameOuter s u :=
  ⟨k.1.trans h.1, k.2.trans h.2, k.3.trans h.3, k.4.trans h.4, k.5.trans h.5, k.6.trans h.6, k.7.trans h.7,
    k.8.trans h.8, k.9.trans h.9, k.10.trans h.10, k.11.trans h.11⟩

theorem SameOuter.foldl {α : Type} {f : State → α → State} (h : ∀ s a, SameOuter s (f s a)) (l : List α) (s : State) :
    SameOuter s (l.foldl f s) := by
  induction l generalizing s with
  | nil => exact refl s
  | cons a l ih => exact (h s a).trans (ih _)

theorem updateOpenBill_outer (f : Bill → Bill) (s : State) : SameOuter s (updateOpenBill f s) := by
  unfold updateOpenBill; split
  · split <;> (constructor <;> rfl)
  · exact .refl s

theorem BlockWork.sameOuter {s t : State} (h : BlockWork s t) : SameOuter s t := by
  induction h with
  | refl s => exact .refl s
  | trans _ _ ih jh => exact ih.trans jh
  | inner h => exact ⟨h.1, h.2, h.3, h.7, h.8, h.9, h.12, h.13, h.18, by rw [h.11], by rw [h.19]⟩
  | due s p => unfold pollDue; split <;> (constructor <;> rfl)
  | preempt s p c x => exact SameOuter.foldl (fun t _ => by constructor <;> rfl) _ _
  | countDone s => exact updateOpenBill_outer _ s
  | addHold s h d => exact updateOpenBill_outer _ s
  | addUnplaced s d => exact updateOpenBill_outer _ s
  | _ => constructor <;> rfl

/-- What neither the relay queue nor SPORT's state shows is the same after a preemption. -/
theorem preempt_same {κ : Type} (k : State → κ) (hk : ∀ s x y, k ((s.withRelayQueue x).withSport y) = k s)
    (p : RelayEntry → Bool) (c : Code) (x : Byte) (s : State) : k (preempt p c x s) = k s :=
  keeps_foldl (fun t e => refuseEntry c x e t) (fun t _ => hk t _ _) _ s

/-- A notice flag that is set stays set. -/
theorem BlockWork.flags_stay {s t : State} (h : BlockWork s t) (n : Fin 13) (hn : s.notices.flags[n] = true) :
    t.notices.flags[n] = true := by
  induction h with
  | refl s => exact hn
  | trans _ _ ih jh => exact jh (ih hn)
  | inner h => rw [h.19]; exact hn
  | due s p => unfold pollDue; split <;> exact hn
  | preempt s p c x =>
    rw [preempt_same State.notices (fun _ _ _ => rfl)]; exact hn
  | countDone s => unfold countDoneStep updateOpenBill; (split <;> try split) <;> exact hn
  | addHold s h d => unfold updateOpenBill; (split <;> try split) <;> exact hn
  | addUnplaced s d => unfold updateOpenBill; (split <;> try split) <;> exact hn
  | notice s m v =>
    show (s.notices.flags.set m.ix.val true)[n.val] = true
    rw [Vector.getElem_set]; split
    · rfl
    · exact hn
  | _ => exact hn

/-! ## Queues -/

theorem nodup_map_map {α β : Type} {f : α → β} {g : α → α} {l : List α} (hg : ∀ x ∈ l, f (g x) = f x)
    (h : (l.map f).Nodup) : ((l.map g).map f).Nodup := by
  rw [List.map_map]
  have : l.map (f ∘ g) = l.map f := List.map_congr_left hg
  rw [this]; exact h

theorem queueOrder_nodup (o : Order) (q : List Order) (h : (q.map (·.station)).Nodup) :
    ((queueOrder o q).map (·.station)).Nodup := by
  unfold queueOrder
  split
  · split
    · exact h
    · refine nodup_map_map (fun x _ => ?_) h
      split
      · rename_i hx; exact hx.symm
      · rfl
  · rename_i hn
    rw [List.map_append, List.map_singleton]
    refine List.nodup_append.mpr ⟨h, List.nodup_singleton _, fun a ha b hb => ?_⟩
    rw [List.mem_singleton] at hb
    obtain ⟨x, hx, rfl⟩ := List.mem_map.mp ha
    rintro rfl
    exact hn (List.any_eq_true.mpr ⟨x, hx, by simp [hb]⟩)

theorem pollDue_nodup (p : Poll) (s : State) (h : (s.polls.map (·.station)).Nodup) :
    ((pollDue p s).polls.map (·.station)).Nodup := by
  unfold pollDue
  split
  · exact h
  · rename_i hn
    show ((s.polls ++ [p]).map (·.station)).Nodup
    rw [List.map_append, List.map_singleton]
    refine List.nodup_append.mpr ⟨h, List.nodup_singleton _, fun a ha b hb => ?_⟩
    rw [List.mem_singleton] at hb
    obtain ⟨x, hx, rfl⟩ := List.mem_map.mp ha
    rintro rfl
    exact hn (Bool.or_eq_true_iff.mpr (Or.inl (List.any_eq_true.mpr ⟨x, hx, by simp [hb]⟩)))

theorem BlockWork.queuesGood {s t : State} (h : BlockWork s t) (hs : QueuesGood s) : QueuesGood t := by
  induction h with
  | refl s => exact hs
  | trans _ _ ih jh => exact jh (ih hs)
  | inner h => exact ⟨by rw [h.5]; exact hs.1, by rw [h.6]; exact hs.2⟩
  | post s o => exact ⟨queueOrder_nodup o _ hs.1, hs.2⟩
  | takeOrder h =>
    refine ⟨?_, hs.2⟩
    have := hs.1; rw [h, List.map_cons] at this
    exact (List.nodup_cons.mp this).2
  | due s p =>
    refine ⟨?_, pollDue_nodup p s hs.2⟩
    have : (pollDue p s).orders = s.orders := by unfold pollDue; split <;> rfl
    rw [this]; exact hs.1
  | takePoll s p => exact ⟨hs.1, hs.2.sublist (List.erase_sublist.map _)⟩
  | preempt s p c x =>
    exact ⟨by rw [preempt_same State.orders (fun _ _ _ => rfl)]; exact hs.1,
      by rw [preempt_same State.polls (fun _ _ _ => rfl)]; exact hs.2⟩
  | countDone s => unfold countDoneStep updateOpenBill; (split <;> try split) <;> exact ⟨hs.1, hs.2⟩
  | addHold s h d => unfold updateOpenBill; (split <;> try split) <;> exact ⟨hs.1, hs.2⟩
  | addUnplaced s d => unfold updateOpenBill; (split <;> try split) <;> exact ⟨hs.1, hs.2⟩
  | _ => exact ⟨hs.1, hs.2⟩

/-! ## Tables -/

/-- A zone entry but for its claim owner, which R52 leaves free. -/
theorem Zone.Good.owner {z : Zone} (h : z.Good) (o : Option Spout) : Zone.Good { z with owner := o } :=
  ⟨h.rail, h.slew, h.reach, h.lower, h.hold, h.ends, h.noEnds⟩

theorem zone_setOwner (s : State) (i j : ZoneIx) (o : Option Spout) :
    ∃ p, (setZoneOwner i o s).zone j = { s.zone j with owner := p } := by
  show ∃ p, (s.zones.entries.set i.val { s.zone i with owner := o })[j.val] = { s.zone j with owner := p }
  rw [Vector.getElem_set]; split
  · rename_i h; have : i = j := Fin.ext h; subst this; exact ⟨o, rfl⟩
  · exact ⟨(s.zone j).owner, rfl⟩

/-- No block changes a zone entry but for its claim owner. -/
theorem BlockWork.zoneOwner {s t : State} (h : BlockWork s t) (i : ZoneIx) :
    ∃ o, t.zone i = { s.zone i with owner := o } := by
  induction h with
  | refl s => exact ⟨_, rfl⟩
  | trans _ _ ih jh =>
    obtain ⟨o, ho⟩ := ih; obtain ⟨p, hp⟩ := jh
    exact ⟨p, by rw [hp, ho]⟩
  | inner h => exact ⟨_, by unfold State.zone; rw [h.11]⟩
  | due s p => unfold pollDue; split <;> exact ⟨_, rfl⟩
  | owner s j o => exact zone_setOwner s j i o
  | preempt s p c x =>
    exact ⟨_, preempt_same (fun s => s.zone i) (fun _ _ _ => rfl) p c x s⟩
  | countDone s => unfold countDoneStep updateOpenBill; (split <;> try split) <;> exact ⟨_, rfl⟩
  | addHold s h d => unfold updateOpenBill; (split <;> try split) <;> exact ⟨_, rfl⟩
  | addUnplaced s d => unfold updateOpenBill; (split <;> try split) <;> exact ⟨_, rfl⟩
  | _ => exact ⟨_, rfl⟩

theorem BlockWork.tablesGood {s t : State} (h : BlockWork s t) (hs : TablesGood s) : TablesGood t := by
  have o := h.sameOuter
  refine ⟨?_, ?_, ?_, ?_, ?_, ?_, ?_⟩
  · obtain ⟨p, hp⟩ := h.zoneOwner 0; rw [hp]; exact hs.nullZone
  · rw [o.limit]; exact hs.limit
  · intro x; unfold offsetOf; rw [o.freeboard]; exact hs.freeboard x
  · rw [o.settings]; exact hs.staged
  · rw [o.settings]; exact hs.inUse
  · intro i; obtain ⟨p, hp⟩ := h.zoneOwner i; rw [hp]; exact (hs.zones i).owner p
  · intro i; rw [o.stations]; exact hs.stations i

theorem BlockWork.keyRule {s t : State} (h : BlockWork s t) (hs : KeyRule s) : KeyRule t := by
  have o := h.sameOuter
  intro hc; rw [o.pins]; exact hs (by rw [← o.console]; exact hc)

end Sys2Proof.Machine
end

