-- ==== Sys2Proof/Laws/KeptTables.lean ====
section
/-! SUPPORT. What `BlockWork` keeps of the plan, the output places and the bill table. -/

namespace Sys2Proof.Machine

/-! ## Step numbers -/

theorem advance_ne_zero (c : Word16) (h : c ≠ 0) : advance c ≠ 0 := by
  unfold advance
  intro k
  have h' : c.toNat ≠ 0 := fun e => h (BitVec.eq_of_toNat_eq (by simpa using e))
  split at k
  · exact absurd k (by decide)
  · rename_i hn
    have hn' : c.toNat ≠ 65535 := fun e => hn (BitVec.eq_of_toNat_eq (by simpa using e))
    have := congrArg BitVec.toNat k
    rw [BitVec.toNat_add] at this
    have := c.isLt
    simp at *
    omega

theorem advance_toNat (c : Word16) (h : c ≠ 0) : (advance c).toNat = c.toNat % 65535 + 1 := by
  unfold advance
  have h' : c.toNat ≠ 0 := fun e => h (BitVec.eq_of_toNat_eq (by simpa using e))
  have := c.isLt
  split
  · rename_i e; subst e; rfl
  · rename_i hn
    have hn' : c.toNat ≠ 65535 := fun e => hn (BitVec.eq_of_toNat_eq (by simpa using e))
    rw [BitVec.toNat_add]; simp; omega

theorem advance_iterate (c : Word16) (h : c ≠ 0) (k : Nat) :
    advance^[k] c ≠ 0 ∧ (advance^[k] c).toNat = (c.toNat - 1 + k) % 65535 + 1 := by
  induction k with
  | zero =>
    have h' : c.toNat ≠ 0 := fun e => h (BitVec.eq_of_toNat_eq (by simpa using e))
    have := c.isLt
    exact ⟨h, by simp only [Function.iterate_zero, id]; omega⟩
  | succ k ih =>
    rw [Function.iterate_succ_apply']
    exact ⟨advance_ne_zero _ ih.1, by rw [advance_toNat _ ih.1, ih.2]; omega⟩

theorem freeNumber_mem (used : List Word16) (fuel : Nat) (c : Word16) (h : freeNumber used fuel c ∈ used) :
    ∀ k ≤ fuel, advance^[k] c ∈ used := by
  induction fuel generalizing c with
  | zero => intro k hk; obtain rfl := Nat.le_zero.mp hk; exact h
  | succ fuel ih =>
    unfold freeNumber at h
    by_cases hc : c ∈ used
    · rw [if_pos hc] at h
      intro k hk
      cases k with
      | zero => exact hc
      | succ k => exact ih (advance c) h k (Nat.le_of_succ_le_succ hk)
    · rw [if_neg hc] at h; exact absurd h hc

theorem freeNumber_free (used : List Word16) (c : Word16) (hc : c ≠ 0) (hl : used.length < 65535) :
    freeNumber used used.length c ∉ used := by
  intro h
  have hm := freeNumber_mem used used.length c h
  have nd : ((List.range (used.length + 1)).map fun k => advance^[k] c).Nodup := by
    refine List.Nodup.map_on (fun i hi j hj e => ?_) List.nodup_range
    have hi := List.mem_range.mp hi
    have hj := List.mem_range.mp hj
    have e' := congrArg BitVec.toNat e
    rw [(advance_iterate c hc i).2, (advance_iterate c hc j).2] at e'
    omega
  have sub : ((List.range (used.length + 1)).map fun k => advance^[k] c) ⊆ used := by
    intro x hx
    obtain ⟨k, hk, rfl⟩ := List.mem_map.mp hx
    exact hm k (Nat.le_of_lt_succ (List.mem_range.mp hk))
  have := (nd.subperm sub).length_le
  rw [List.length_map, List.length_range] at this
  omega

theorem freeNumber_ne_zero (used : List Word16) (fuel : Nat) (c : Word16) (hc : c ≠ 0) : freeNumber used fuel c ≠ 0 := by
  induction fuel generalizing c with
  | zero => exact hc
  | succ fuel ih =>
    unfold freeNumber; split
    · exact ih _ (advance_ne_zero c hc)
    · exact hc

theorem nextNumber_new (s : State) (h : PlanGood s) : nextNumber s ∉ s.plan.map (·.number) ∧ nextNumber s ≠ 0 := by
  have hl : (s.plan.map (·.number)).length < 65535 := by
    rw [List.length_map]; have := h.size; simp only [Config.planRecords] at this; omega
  have := freeNumber_free (s.plan.map (·.number)) s.stepCounter h.counter hl
  rw [List.length_map] at this
  exact ⟨this, freeNumber_ne_zero _ _ _ h.counter⟩

/-! ## The plan -/

theorem PlanGood.of_eq {s t : State} (h : PlanGood s) (hp : t.plan = s.plan) (hc : t.stepCounter = s.stepCounter) :
    PlanGood t := ⟨by rw [hp]; exact h.1, by rw [hp]; exact h.2, by rw [hp]; exact h.3, by rw [hc]; exact h.4⟩

theorem updateStep_planGood (n : Word16) (f : StepRec → StepRec) (hf : ∀ r, (f r).number = r.number) (s : State)
    (h : PlanGood s) : PlanGood (updateStep n f s) := by
  have hg : ∀ r : StepRec, (if r.number = n then f r else r).number = r.number := by
    intro r; split
    · exact hf r
    · rfl
  refine ⟨?_, ?_, ?_, h.4⟩
  · show (s.plan.map _).length ≤ _
    rw [List.length_map]; exact h.1
  · exact nodup_map_map (fun r _ => hg r) h.2
  · intro r hr
    obtain ⟨q, hq, rfl⟩ := List.mem_map.mp hr
    rw [hg]; exact h.3 q hq

theorem joinPlan_planGood {mk : Word16 → StepRec} {place : StepRec → List StepRec → List StepRec} (s : State)
    (hl : s.plan.length < Config.planRecords) (hm : ∀ n, (mk n).number = n)
    (hp : ∀ x l, (place x l).Perm (x :: l)) (h : PlanGood s) : PlanGood (joinPlan mk place s) := by
  obtain ⟨hnew, hz⟩ := nextNumber_new s h
  have pm := hp (mk (nextNumber s)) s.plan
  refine ⟨?_, ?_, ?_, ?_⟩
  · show (place _ s.plan).length ≤ _
    rw [pm.length_eq]; exact hl
  · show ((place _ s.plan).map _).Nodup
    refine (pm.map _).nodup_iff.mpr ?_
    rw [List.map_cons, hm]
    exact List.nodup_cons.mpr ⟨hnew, h.2⟩
  · intro r hr
    have hr : r ∈ place (mk (nextNumber s)) s.plan := hr
    rcases List.mem_cons.mp (pm.mem_iff.mp hr) with rfl | hr
    · rw [hm]; exact hz
    · exact h.3 r hr
  · exact advance_ne_zero _ hz

theorem BlockWork.planGood {s t : State} (h : BlockWork s t) (hs : PlanGood s) : PlanGood t := by
  induction h with
  | refl s => exact hs
  | trans _ _ ih jh => exact jh (ih hs)
  | inner h => exact hs.of_eq h.14 h.15
  | due s p => exact hs.of_eq (by unfold pollDue; split <;> rfl) (by unfold pollDue; split <;> rfl)
  | preempt s p c x =>
    exact hs.of_eq (preempt_same State.plan (fun _ _ _ => rfl) p c x s)
      (preempt_same State.stepCounter (fun _ _ _ => rfl) p c x s)
  | step s n hf => exact updateStep_planGood n _ hf s hs
  | join hl hm hp => exact joinPlan_planGood _ hl hm hp hs
  | countDone s => unfold countDoneStep updateOpenBill; (split <;> try split) <;> exact hs.of_eq rfl rfl
  | addHold s h d => unfold updateOpenBill; (split <;> try split) <;> exact hs.of_eq rfl rfl
  | addUnplaced s d => unfold updateOpenBill; (split <;> try split) <;> exact hs.of_eq rfl rfl
  | _ => exact hs.of_eq rfl rfl

/-! ## The output places -/

/-- The tags of the relay queue. -/
def tags (s : State) : List Byte := s.relayQueue.map (·.tag)

/-- What a block's work does to the output places: none is taken or freed, and no relay entry joins. -/
structure PlacesStep (s t : State) : Prop where
  good : PlacesGood t
  used : t.placesUsed = s.placesUsed
  tags : (tags t).Sublist (tags s)
  restartPending : t.sport.restartPending = s.sport.restartPending

theorem PlacesGood.of_eq {s t : State} (h : PlacesGood s) (hp : t.sport = s.sport) (hq : t.relayQueue = s.relayQueue) :
    PlacesGood t := by
  refine ⟨?_, ?_, ?_, ?_, ?_⟩
  · rw [hp, hq]; exact h.1
  · rw [hq]; exact h.2
  · rw [hq]; exact h.3
  · unfold State.placesUsed; rw [hp]; exact h.4
  · rw [hp]; exact h.5

theorem PlacesStep.of_eq {s t : State} (h : PlacesGood s) (hp : t.sport = s.sport) (hq : t.relayQueue = s.relayQueue) :
    PlacesStep s t :=
  ⟨h.of_eq hp hq, by unfold State.placesUsed; rw [hp], by unfold Machine.tags; rw [hq], by rw [hp]⟩

theorem PlacesStep.trans {s t u : State} (h : PlacesStep s t) (k : PlacesStep t u) : PlacesStep s u :=
  ⟨k.1, k.2.trans h.2, k.3.trans h.3, k.4.trans h.4⟩

theorem answerEntry_tags (e : RelayEntry) (a : Answer) (s : State) (h : (tags s).Nodup) :
    tags (answerEntry e a s) = (tags s).erase e.tag := by
  rw [h.erase_eq_filter]
  unfold tags answerEntry
  simp only [State.withSport_fields, State.withRelayQueue_fields]
  rw [List.filter_map]
  congr 1
  refine List.filter_congr fun x _ => ?_
  show decide (x.tag ≠ e.tag) = (x.tag != e.tag)
  rw [bne, beq_eq_decide, decide_not]

theorem answerEntry_places (e : RelayEntry) (a : Answer) (s : State) (he : e ∈ s.relayQueue) (h : PlacesGood s) :
    PlacesStep s (answerEntry e a s) := by
  have ht := answerEntry_tags e a s h.2
  have hmem : e.tag ∈ tags s := List.mem_map_of_mem he
  have hres : e.tag ∈ s.sport.reserved := h.1.mem_iff.mpr hmem
  have hlen : (s.sport.reserved.erase e.tag).length + (s.sport.ready ++ [a]).length
      = s.sport.reserved.length + s.sport.ready.length := by
    rw [List.length_append, List.length_erase_of_mem hres]
    have := List.length_pos_of_mem hres
    simp; omega
  refine ⟨⟨?_, ?_, ?_, ?_, ?_⟩, hlen, ?_, rfl⟩
  · show (s.sport.reserved.erase e.tag).Perm (tags (answerEntry e a s))
    rw [ht]; exact h.1.erase _
  · show (tags (answerEntry e a s)).Nodup
    rw [ht]; exact h.2.sublist List.erase_sublist
  · exact le_trans (List.length_filter_le _ _) h.3
  · show (s.sport.reserved.erase e.tag).length + (s.sport.ready ++ [a]).length ≤ _
    rw [hlen]; exact h.4
  · intro _; show s.sport.ready ++ [a] ≠ []; simp
  · rw [ht]; exact List.erase_sublist

theorem refuseAll_places (c : Code) (x : Byte) (l : List RelayEntry) (s : State) (hl : ∀ e ∈ l, e ∈ s.relayQueue)
    (hn : (l.map (·.tag)).Nodup) (h : PlacesGood s) : PlacesStep s (l.foldl (fun t e => refuseEntry c x e t) s) := by
  induction l generalizing s with
  | nil => exact .of_eq h rfl rfl
  | cons e l ih =>
    rw [List.map_cons, List.nodup_cons] at hn
    have h1 : PlacesStep s (refuseEntry c x e s) :=
      answerEntry_places e _ s (hl e List.mem_cons_self) h
    refine h1.trans (ih _ (fun d hd => ?_) hn.2 h1.1)
    refine List.mem_filter.mpr ⟨hl d (List.mem_cons_of_mem _ hd), ?_⟩
    have : d.tag ≠ e.tag := fun k => hn.1 (k ▸ List.mem_map_of_mem hd)
    simpa using this

theorem preempt_places (p : RelayEntry → Bool) (c : Code) (x : Byte) (s : State) (h : PlacesGood s) :
    PlacesStep s (preempt p c x s) :=
  refuseAll_places c x _ s (fun _ he => List.mem_of_mem_filter he) (h.2.sublist (List.filter_sublist.map _)) h

theorem BlockWork.places {s t : State} (h : BlockWork s t) (hs : PlacesGood s) : PlacesStep s t := by
  induction h with
  | refl s => exact .of_eq hs rfl rfl
  | trans _ _ ih jh => exact (ih hs).trans (jh (ih hs).1)
  | inner h => exact .of_eq hs h.4 h.10
  | due s p => exact .of_eq hs (by unfold pollDue; split <;> rfl) (by unfold pollDue; split <;> rfl)
  | answer a he => exact answerEntry_places _ a _ he hs
  | preempt s p c x => exact preempt_places p c x s hs
  | mark s tag body =>
    have ht : (markOnLine tag body s).relayQueue.map (·.tag) = s.relayQueue.map (·.tag) := by
      show (s.relayQueue.map _).map _ = _
      rw [List.map_map]
      refine List.map_congr_left fun e _ => ?_
      show (if e.tag = tag then { e with body, onLine := true } else e).tag = e.tag
      split <;> rfl
    refine ⟨⟨?_, ?_, ?_, hs.4, hs.5⟩, rfl, ?_, rfl⟩
    · rw [ht]; exact hs.1
    · rw [ht]; exact hs.2
    · show (s.relayQueue.map _).length ≤ _
      rw [List.length_map]; exact hs.3
    · unfold Machine.tags; rw [ht]
  | countDone s => unfold countDoneStep updateOpenBill; (split <;> try split) <;> exact .of_eq hs rfl rfl
  | addHold s h d => unfold updateOpenBill; (split <;> try split) <;> exact .of_eq hs rfl rfl
  | addUnplaced s d => unfold updateOpenBill; (split <;> try split) <;> exact .of_eq hs rfl rfl
  | _ => exact .of_eq hs rfl rfl

/-! ## The bill table -/

theorem foldl_add_shift (l : List Word32) (a d : Word32) : l.foldl (· + ·) (a + d) = l.foldl (· + ·) a + d := by
  induction l generalizing a with
  | nil => rfl
  | cons x l ih =>
    rw [List.foldl_cons, List.foldl_cons, ← ih]
    congr 1
    rw [BitVec.add_assoc, BitVec.add_assoc, BitVec.add_comm d x]

theorem foldl_add_grow (l : List Word32) (i : Nat) (hi : i < l.length) (a d : Word32) :
    (l.set i (l[i] + d)).foldl (· + ·) a = l.foldl (· + ·) a + d := by
  induction l generalizing i a with
  | nil => exact absurd hi (Nat.not_lt_zero _)
  | cons x l ih =>
    cases i with
    | zero =>
      simp only [List.set_cons_zero, List.foldl_cons, List.getElem_cons_zero]
      rw [← BitVec.add_assoc, foldl_add_shift]
    | succ i =>
      simp only [List.set_cons_succ, List.foldl_cons, List.getElem_cons_succ]
      exact ih i (by simpa using hi) _

theorem addHold_sum (b : Bill) (h : Hold) (d : Word32) : (b.addHold h d).sum = b.sum + d := by
  unfold Bill.addHold Bill.sum
  rw [Vector.toList_set]
  have := foldl_add_grow b.holds.toList h.val (by simp) 0 d
  rw [Vector.getElem_toList] at this
  show List.foldl _ _ (b.holds.toList.set h.val (b.holds[h.val] + d)) + _ = _
  rw [this, BitVec.add_assoc, BitVec.add_assoc, BitVec.add_comm d]

theorem addUnplaced_sum (b : Bill) (d : Word32) : (b.addUnplaced d).sum = b.sum + d := (BitVec.add_assoc _ _ _).symm

/-- A change of the OPEN record that keeps the record's own rules keeps the table's. -/
theorem updateOpenBill_good (f : Bill → Bill) (s : State) (hn : ∀ b, (f b).number = b.number)
    (hst : ∀ b, (f b).state = b.state) (hc : ∀ b, (f b).closedAt = b.closedAt)
    (ht : ∀ b, b.total = b.sum → (f b).total = (f b).sum) (h : BillsGood s) : BillsGood (updateOpenBill f s) := by
  unfold updateOpenBill
  split
  · rename_i i _
    split
    · rename_i b hb
      have key : ∀ (j : Fin 8) (x : Bill), (setBill i (f b) s).bills[j] = some x →
          ∃ y, s.bills[j] = some y ∧ x.number = y.number ∧ x.state = y.state ∧ x.closedAt = y.closedAt ∧
            (y.total = y.sum → x.total = x.sum) := by
        intro j x hx
        have hx' : (s.bills.set i.val (some (f b)))[j.val] = some x := hx
        rw [Vector.getElem_set] at hx'
        by_cases e : i.val = j.val
        · rw [if_pos e] at hx'
          obtain rfl : i = j := Fin.ext e
          obtain rfl := Option.some.inj hx'
          exact ⟨b, hb, hn b, hst b, hc b, ht b⟩
        · rw [if_neg e] at hx'
          exact ⟨x, hx', rfl, rfl, rfl, id⟩
      refine ⟨?_, ?_, ?_, ?_, ?_⟩
      · intro j x hx; obtain ⟨y, hy, _, _, _, k⟩ := key j x hx; exact k (h.1 j y hy)
      · intro j x hx; obtain ⟨y, hy, k, _⟩ := key j x hx; rw [k]; exact h.2 j y hy
      · intro j x hx hs; obtain ⟨y, hy, _, k, l, _⟩ := key j x hx; rw [l]; exact h.3 j y hy (k ▸ hs)
      · intro j j' x x' hx hx' e
        obtain ⟨y, hy, k, _⟩ := key j x hx; obtain ⟨y', hy', k', _⟩ := key j' x' hx'
        exact h.4 j j' y y' hy hy' (by rw [← k, ← k', e])
      · intro j j' x x' hx hx' e e'
        obtain ⟨y, hy, _, k, _⟩ := key j x hx; obtain ⟨y', hy', _, k', _⟩ := key j' x' hx'
        exact h.5 j j' y y' hy hy' (k ▸ e) (k' ▸ e')
    · exact h
  · exact h

theorem BillsGood.of_eq {s t : State} (h : BillsGood s) (hb : t.bills = s.bills) : BillsGood t :=
  ⟨by rw [hb]; exact h.1, by rw [hb]; exact h.2, by rw [hb]; exact h.3, by rw [hb]; exact h.4, by rw [hb]; exact h.5⟩

theorem BlockWork.billsGood {s t : State} (h : BlockWork s t) (hs : BillsGood s) : BillsGood t := by
  induction h with
  | refl s => exact hs
  | trans _ _ ih jh => exact jh (ih hs)
  | inner h => exact hs.of_eq h.16
  | due s p => exact hs.of_eq (by unfold pollDue; split <;> rfl)
  | preempt s p c x => exact hs.of_eq (preempt_same State.bills (fun _ _ _ => rfl) p c x s)
  | countDone s =>
    exact updateOpenBill_good _ s (fun _ => rfl) (fun _ => rfl) (fun _ => rfl) (fun _ h => h) hs
  | addHold s h d =>
    refine updateOpenBill_good _ s (fun _ => rfl) (fun _ => rfl) (fun _ => rfl) (fun b hb => ?_) hs
    rw [addHold_sum, ← hb]; rfl
  | addUnplaced s d =>
    refine updateOpenBill_good _ s (fun _ => rfl) (fun _ => rfl) (fun _ => rfl) (fun b hb => ?_) hs
    rw [addUnplaced_sum, ← hb]; rfl
  | _ => exact hs.of_eq rfl

end Sys2Proof.Machine
end

