-- ==== Sys2Proof/Laws/Activation.lean ====
section
/-! SUPPORT. The activation test comes to its end: each round that goes on leaves fewer WAITING steps that are filled, so the
rounds `activationTest` allows are enough. -/

namespace Sys2Proof.Machine

/-- A WAITING step that the activation test would make DONE. -/
def StepRec.ripe (r : StepRec) : Bool := r.state == .waiting && r.complete

/-- How many such steps the plan holds. -/
def ripeCount (s : State) : Nat := s.plan.countP StepRec.ripe

theorem ripeCount_of_plan {s t : State} (h : t.plan = s.plan) : ripeCount t = ripeCount s := by unfold ripeCount; rw [h]

theorem countP_map_le {p : StepRec → Bool} {g : StepRec → StepRec} {l : List StepRec}
    (h : ∀ r ∈ l, p (g r) = true → p r = true) : (l.map g).countP p ≤ l.countP p := by
  rw [List.countP_map]; exact List.countP_mono_left h

theorem countP_map_lt {p : StepRec → Bool} {g : StepRec → StepRec} {l : List StepRec}
    (h : ∀ r ∈ l, p (g r) = true → p r = true) {x : StepRec} (hx : x ∈ l) (hp : p x = true) (hg : p (g x) = false) :
    (l.map g).countP p < l.countP p := by
  induction l with
  | nil => cases hx
  | cons a l ih =>
    have hl : ∀ r ∈ l, p (g r) = true → p r = true := fun r hr => h r (List.mem_cons_of_mem _ hr)
    rw [List.map_cons]
    rcases List.mem_cons.mp hx with rfl | hx
    · rw [List.countP_cons_of_neg (by rw [hg]; simp), List.countP_cons_of_pos hp]
      exact Nat.lt_succ_of_le (countP_map_le hl)
    · have := ih hl hx
      by_cases ha : p (g a) = true
      · rw [List.countP_cons_of_pos ha, List.countP_cons_of_pos (h a List.mem_cons_self ha)]; omega
      · rw [List.countP_cons_of_neg ha]
        exact Nat.lt_of_lt_of_le this (by rw [List.countP_cons]; omega)

/-! ## The writers of the plan -/

section
variable (s : State)

theorem setStepState_ripe (n : Word16) {x : StepState} (hx : x ≠ .waiting) :
    ripeCount (setStepState n x s) ≤ ripeCount s := by
  refine countP_map_le fun r _ h => ?_
  split at h
  · simp [StepRec.ripe, hx] at h
  · exact h

theorem setStepState_ripe_lt {r : StepRec} {x : StepState} (hx : x ≠ .waiting) (hr : r ∈ s.plan) (hp : r.ripe = true) :
    ripeCount (setStepState r.number x s) < ripeCount s := by
  refine countP_map_lt (fun q _ h => ?_) hr hp (by simp [StepRec.ripe, hx])
  split at h
  · simp [StepRec.ripe, hx] at h
  · exact h

theorem postGate_plan (sp : Spout) (x : Setting) : (postGate sp x s).plan = s.plan := by
  unfold postGate postOrder; split <;> rfl

theorem reduceTo_plan (sp : Spout) (x : Setting) : (reduceTo sp x s).plan = s.plan := by
  unfold reduceTo; split
  · split
    · exact postGate_plan s _ _
    · rfl
  · rfl

theorem openAtCap_plan (sp : Spout) : (openAtCap sp s).plan = s.plan := by
  unfold openAtCap; split
  · exact postGate_plan s _ _
  · rfl

theorem updateOpenBill_plan (f : Bill → Bill) : (updateOpenBill f s).plan = s.plan := by
  unfold updateOpenBill; split
  · split <;> rfl
  · rfl

theorem dropTop_plan (sp : Spout) : (dropTop sp s).plan = s.plan := by
  unfold dropTop; split
  · split <;> rfl
  · rfl

theorem markDone_plan (n : Word16) : (markDone n s).plan = (setStepState n .done s).plan :=
  updateOpenBill_plan _ _

theorem topOff_ripe (n : Word16) : ripeCount (topOff n s) = ripeCount s := by
  unfold topOff; split
  · rfl
  · split
    · dsimp only
      have flag : ripeCount (updateStep n (fun q => { q with inTopOff := true }) s) = ripeCount s := by
        show (s.plan.map _).countP _ = _
        rw [List.countP_map]
        refine congrArg (fun p => List.countP p s.plan) (funext fun q => ?_)
        simp only [Function.comp]; split <;> rfl
      split
      · rw [ripeCount_of_plan (reduceTo_plan _ _ _)]; exact flag
      · exact flag
    · rfl

theorem poursNow_ripe (r : StepRec) : ripeCount (poursNow r s) = ripeCount s := by
  unfold poursNow; dsimp only; split
  · rw [ripeCount_of_plan (openAtCap_plan _ _), topOff_ripe]
  · exact topOff_ripe s _

/-- A TRIM record that joins the plan is not filled. -/
theorem trimRecord_ripe (sp : Spout) (req : TrimRequest) (n : Word16) : (trimRecord sp req n).ripe = false := by
  have : ¬ (trimRecord sp req n).effTarget ≤ (0 : Word32).toNat := by
    unfold StepRec.effTarget; split
    · decide
    · rename_i h
      intro k
      exact h (BitVec.eq_of_toNat_eq (Nat.le_zero.mp k))
  have hc : (trimRecord sp req n).complete = false := by
    unfold StepRec.complete
    rw [show (trimRecord sp req n).poured = 0 from rfl, decide_eq_false this]; simp
  unfold StepRec.ripe; rw [hc]; simp

theorem joinPlan_ripe {sp : Spout} {req : TrimRequest} {place : StepRec → List StepRec → List StepRec}
    (hp : ∀ x l, (place x l).Perm (x :: l)) : ripeCount (joinPlan (trimRecord sp req) place s) = ripeCount s := by
  show (place (trimRecord sp req (nextNumber s)) s.plan).countP _ = _
  rw [(hp _ _).countP_eq, List.countP_cons_of_neg (by rw [trimRecord_ripe]; simp)]; rfl

theorem pushRunning_ripe (sp : Spout) (r : StepRec) (req : TrimRequest) :
    ripeCount (pushRunning sp r req s) ≤ ripeCount s := by
  unfold pushRunning; dsimp only
  rw [joinPlan_ripe _ fun x l => insertBefore_perm _ x l]
  have h := setStepState_ripe (pushEntry sp { suspended := r.number, trim := nextNumber s } s) r.number
    (x := .suspended) (by decide)
  rw [ripeCount_of_plan (pushEntry_plan s sp _)] at h
  split
  · rw [ripeCount_of_plan (closeUnlessClosed_plan _ _)]; exact h
  · exact h

theorem serveLatch_ripe (sp : Spout) : ripeCount (serveLatch sp s) ≤ ripeCount s := by
  unfold serveLatch; split
  · exact Nat.le_refl _
  · split
    · exact Nat.le_refl _
    · dsimp only
      split
      · exact pushRunning_ripe s _ _ _
      · exact Nat.le_of_eq (joinPlan_ripe s fun x l => List.perm_append_singleton x l)

theorem serveShared_ripe : ripeCount (serveShared s) ≤ ripeCount s := by
  unfold serveShared; split
  · dsimp only; split
    · exact (serveLatch_ripe _ _).trans (serveLatch_ripe s _)
    · exact serveLatch_ripe s _
  · exact Nat.le_refl _

/-- In a plan of distinct numbers a number finds every record it names. -/
theorem findStep_unique {s : State} (hs : PlanGood s) {n : Word16} {r q : StepRec} (h : findStep s n = some r)
    (hq : q ∈ s.plan) (hn : q.number = n) : q = r := by
  have hr := List.mem_of_find?_eq_some h
  have hrn : r.number = n := by have := List.find?_some h; simpa using this
  exact List.inj_on_of_nodup_map hs.distinct hq hr (hn.trans hrn.symm)

/-- A step that returns from the stack, filled or not, adds no WAITING step that is filled. -/
theorem returned_ripe (n : Word16) (hs : PlanGood s) :
    let t := setStepState n .waiting s
    (findStep t n = none → ripeCount t ≤ ripeCount s) ∧
    ∀ r, findStep t n = some r →
      (r.complete = false → ripeCount t ≤ ripeCount s) ∧ ripeCount (markDone n t) ≤ ripeCount s := by
  intro t
  refine ⟨fun h => ?_, fun r h => ⟨fun hc => ?_, ?_⟩⟩
  · refine countP_map_le fun q hq hp => ?_
    have : (if q.number = n then { q with state := .waiting } else q) ∈ t.plan := List.mem_map_of_mem hq
    split at hp
    · rename_i e
      have k := List.find?_eq_none.mp h _ this
      rw [if_pos e] at k; simp [e] at k
    · exact hp
  · refine countP_map_le fun q hq hp => ?_
    split at hp
    · rename_i e
      have hm : { q with state := .waiting } ∈ t.plan := by
        have : (if q.number = n then { q with state := .waiting } else q) ∈ t.plan := List.mem_map_of_mem hq
        rwa [if_pos e] at this
      have ht : PlanGood t := (setStepState_work s n .waiting).planGood hs
      have := findStep_unique ht h hm e
      subst this
      simp [StepRec.ripe, hc] at hp
    · exact hp
  · rw [ripeCount_of_plan (markDone_plan t n)]
    show ((s.plan.map _).map _).countP _ ≤ _
    rw [List.map_map]
    refine countP_map_le fun q _ hp => ?_
    simp only [Function.comp] at hp
    by_cases e : q.number = n
    · simp [e, StepRec.ripe] at hp
    · simpa [e] using hp

theorem popCascade_ripe (sp : Spout) (fuel : Nat) (n : Word16) (hs : PlanGood s) :
    ripeCount (popCascade sp fuel n s) ≤ ripeCount s := by
  induction fuel generalizing n s with
  | zero => exact Nat.le_refl _
  | succ fuel ih =>
    unfold popCascade; split
    · exact Nat.le_refl _
    · split
      · dsimp only
        rename_i e _ _
        have hd : PlanGood (dropTop sp s) := (dropTop_work s sp).planGood hs
        have key := returned_ripe (dropTop sp s) e.suspended hd
        rw [ripeCount_of_plan (dropTop_plan s sp)] at key
        split
        · rename_i h; exact key.1 h
        · rename_i r h
          have hn : r.number = e.suspended := by have := List.find?_some h; simpa using this
          split
          · rw [hn]
            split
            · refine (ih _ _ ?_).trans (key.2 r h).2
              exact (markDone_work _ _).planGood ((setStepState_work _ _ _).planGood hd)
            · exact (key.2 r h).2
          · rename_i hc; exact (key.2 r h).1 (by simpa using hc)
      · exact Nat.le_refl _

theorem trimEnded_ripe (sp : Spout) (n : Word16) (hs : PlanGood s) : ripeCount (trimEnded sp n s) ≤ ripeCount s := by
  unfold trimEnded; dsimp only
  have h := popCascade_ripe s sp 4 n hs
  split
  · split
    · exact (serveShared_ripe _).trans ((serveLatch_ripe _ _).trans h)
    · exact (serveShared_ripe _).trans h
  · split
    · exact (serveLatch_ripe _ _).trans h
    · exact h

theorem enterDone_ripe (r : StepRec) (hs : PlanGood s) (hr : r ∈ s.plan) (hp : r.ripe = true) :
    ripeCount (enterDone r s) < ripeCount s := by
  have h := setStepState_ripe_lt s (x := .done) (by decide) hr hp
  have hd : PlanGood (setStepState r.number .done s) := (setStepState_work s _ _).planGood hs
  unfold enterDone afterEnd; dsimp only
  have told : ∀ t : State, (countDoneStep (setNotice .stepDone r.number t)).plan = t.plan :=
    fun t => updateOpenBill_plan _ _
  have good : ∀ t : State, PlanGood t → PlanGood (countDoneStep (setNotice .stepDone r.number t)) :=
    fun t ht => ((BlockWork.notice t _ _).trans (.countDone _)).planGood ht
  split
  · split
    · refine Nat.lt_of_le_of_lt (trimEnded_ripe _ _ _ (good _ ((closeUnlessClosed_work _ _).planGood hd))) ?_
      rw [ripeCount_of_plan (told _), ripeCount_of_plan (closeUnlessClosed_plan _ _)]; exact h
    · refine Nat.lt_of_le_of_lt (trimEnded_ripe _ _ _ (good _ hd)) ?_
      rw [ripeCount_of_plan (told _)]; exact h
  · split
    · rw [ripeCount_of_plan (told _), ripeCount_of_plan (closeUnlessClosed_plan _ _)]; exact h
    · rw [ripeCount_of_plan (told _)]; exact h

/-- One spout's test never adds a WAITING step that is filled, and takes one away where it makes a step DONE. -/
theorem testSpout_ripe (sp : Spout) (hs : PlanGood s) :
    ripeCount (testSpout sp s).1 ≤ ripeCount s ∧
      ((testSpout sp s).2 = true → ripeCount (testSpout sp s).1 < ripeCount s) := by
  have active : ∀ r : StepRec, ripeCount (setStepState r.number .active s) ≤ ripeCount s :=
    fun r => setStepState_ripe s _ (by decide)
  unfold testSpout; split
  · exact ⟨Nat.le_refl _, fun h => by cases h⟩
  · rename_i r hr
    split
    · rename_i hw
      split
      · rename_i hc
        have hm : r ∈ s.plan := by
          unfold runningStep at hr
          split at hr
          · split at hr
            · rename_i q hq
              cases hr; exact List.mem_of_find?_eq_some hq
            · exact List.mem_of_find?_eq_some hr
          · cases hr
        have h := enterDone_ripe s r hs hm (by simp [StepRec.ripe, hw, hc])
        exact ⟨Nat.le_of_lt h, fun _ => h⟩
      · split
        · refine ⟨?_, fun h => by cases h⟩
          show ripeCount (activate r s) ≤ _
          unfold activate; rw [poursNow_ripe]; exact active r
        · exact ⟨Nat.le_refl _, fun h => by cases h⟩
    · split
      · split
        · refine ⟨?_, fun h => by cases h⟩
          show ripeCount (returnActive r s) ≤ _
          unfold returnActive; rw [poursNow_ripe]; exact active r
        · exact ⟨Nat.le_refl _, fun h => by cases h⟩
      · exact ⟨Nat.le_refl _, fun h => by cases h⟩

end

/-- Enough rounds run to the end. -/
theorem activationRounds_rounds (fuel : Nat) (s : State) (hs : PlanGood s) (h : ripeCount s < fuel) :
    Rounds s (activationRounds fuel s) := by
  induction fuel generalizing s with
  | zero => exact absurd h (Nat.not_lt_zero _)
  | succ fuel ih =>
    have ha := testSpout_ripe s .a hs
    have ga : PlanGood (testSpout .a s).1 := (testSpout_work s .a).planGood hs
    have hb := testSpout_ripe (testSpout .a s).1 .b ga
    have gb : PlanGood (testSpout .b (testSpout .a s).1).1 := (testSpout_work _ .b).planGood ga
    unfold activationRounds; dsimp only
    split
    · rename_i k
      rw [Bool.or_eq_true] at k
      refine .again k (ih _ gb ?_)
      rcases k with k | k
      · have := ha.2 k; have := hb.1; omega
      · have := hb.2 k; have := ha.1; omega
    · rename_i k
      rw [Bool.or_eq_true, not_or] at k
      exact .last (by simpa using k.1) (by simpa using k.2)

end Sys2Proof.Machine
end

