-- ==== Sys2Proof/Laws/Bytes.lean ====
section
/-! SUPPORT. Bytes of fields read back: high byte first, yes/no bytes, levels, settings, the payloads of relay frames. -/

namespace Sys2Proof

theorem word16_toNat (h l : Byte) : (word16 h l).toNat = h.toNat * 256 + l.toNat := by
  rw [word16, BitVec.toNat_append, ← Nat.shiftLeft_add_eq_or_of_lt l.isLt, Nat.shiftLeft_eq]

theorem word32_toNat (b3 b2 b1 b0 : Byte) :
    (word32 b3 b2 b1 b0).toNat = ((b3.toNat * 256 + b2.toNat) * 256 + b1.toNat) * 256 + b0.toNat := by
  rw [word32, BitVec.toNat_append, ← Nat.shiftLeft_add_eq_or_of_lt (word16 b1 b0).isLt, Nat.shiftLeft_eq, word16_toNat,
    word16_toNat]
  omega

theorem word16_bytes (w : Word16) : word16 (w.extractLsb' 8 8) (w.extractLsb' 0 8) = w := by
  apply BitVec.eq_of_toNat_eq
  have := w.isLt
  rw [word16_toNat, BitVec.extractLsb'_toNat, BitVec.extractLsb'_toNat, Nat.shiftRight_eq_div_pow,
    Nat.shiftRight_eq_div_pow]
  omega

theorem word32_bytes (w : Word32) :
    word32 (w.extractLsb' 24 8) (w.extractLsb' 16 8) (w.extractLsb' 8 8) (w.extractLsb' 0 8) = w := by
  apply BitVec.eq_of_toNat_eq
  have := w.isLt
  rw [word32_toNat]
  simp only [BitVec.extractLsb'_toNat, Nat.shiftRight_eq_div_pow]
  omega

@[simp] theorem yesNoOfByte_yesNo (b : Bool) : yesNoOfByte (yesNo b) = some b := by cases b <;> rfl

@[simp] theorem spoutOfByte_byte (sp : Spout) : spoutOfByte sp.byte = some sp := by cases sp <;> rfl

@[simp] theorem levelOfByte_byte (l : Level) : levelOfByte (levelByte l) = some l := by revert l; decide

@[simp] theorem settingOfByte_byte (x : Setting) : settingOfByte (settingByte x) = some x := by revert x; decide

theorem readMove_bytes (m : MoveFields) : readMove m.bytes = some m := by
  unfold MoveFields.bytes bytes32 bytes16
  simp only [List.cons_append, List.nil_append, readMove, spoutOfByte_byte, levelOfByte_byte, word16_bytes,
    word32_bytes]

theorem readGate_bytes (g : GateFields) : readGate g.bytes = some g := by
  unfold GateFields.bytes
  simp only [readGate, spoutOfByte_byte, levelOfByte_byte, settingOfByte_byte]

theorem MoveFields.bytes_length (m : MoveFields) : m.bytes.length = 14 := rfl

theorem GateFields.bytes_length (g : GateFields) : g.bytes.length = 3 := rfl

end Sys2Proof
end

