-- ==== Sys2Proof/Laws/PerInstr.lean ====
section
/-! SUPPORT. Per command: the frame that carries it, if it has one, is a frame of the supervisor with no header flags, whose
payload fits a frame where the command is well formed. -/

namespace Sys2Proof.Laws.FrameCarries

/-- What the frame of a command is, whatever the command. -/
def Statement (i : Instr) : Prop :=
  ∀ f, frameOf i = some f → f.source = 62 ∧ f.flags = 0 ∧ (i.wf = true → f.payload.length ≤ Config.maxPayload)

/-- A command no frame carries. -/
theorem of_none {i : Instr} (h : frameOf i = none) : Statement i := fun f hf => by rw [h] at hf; cases hf

/-- A command whose frame has a payload of fixed length. -/
theorem of_frame {i : Instr} {d k t : Byte} {p : List Byte} (h : frameOf i = some (supFrame d k t p))
    (hp : i.wf = true → p.length ≤ 48) : Statement i := fun f hf => by
  rw [h] at hf; cases hf; exact ⟨rfl, rfl, hp⟩

theorem powerOn : ∀ x0 x1, Statement (Instr.powerOn x0 x1) := fun _ _ => of_none rfl

theorem restartInput : Statement Instr.restartInput := of_none rfl

theorem restartInputRelease : Statement Instr.restartInputRelease := of_none rfl

theorem maintenanceKeyInactive : Statement Instr.maintenanceKeyInactive := of_none rfl

theorem maintenanceKeyActive : Statement Instr.maintenanceKeyActive := of_none rfl

theorem supervisorFrame : ∀ x0 x1, Statement (Instr.supervisorFrame x0 x1) := fun _ _ => of_none rfl

theorem supervisorFrameLengthDiscard : Statement Instr.supervisorFrameLengthDiscard := of_none rfl

theorem supervisorFrameTimeLimit : Statement Instr.supervisorFrameTimeLimit := of_none rfl

theorem upstreamFrameStart : Statement Instr.upstreamFrameStart := of_none rfl

theorem upstreamFrameSent : Statement Instr.upstreamFrameSent := of_none rfl

theorem move : ∀ x0 x1 x2, Statement (Instr.move x0 x1 x2) :=
  fun _ _ _ => of_frame rfl fun _ => Nat.le_of_ble_eq_true rfl

theorem gate : ∀ x0 x1 x2, Statement (Instr.gate x0 x1 x2) :=
  fun _ _ _ => of_frame rfl fun _ => Nat.le_of_ble_eq_true rfl

theorem plain : ∀ x0 x1 x2, Statement (Instr.plain x0 x1 x2) :=
  fun _ _ x2 => of_frame rfl fun h => by
    have h : (fieldAddress _ && decide (x2.length ≤ Config.maxPayload)) = true := h
    exact of_decide_eq_true (Bool.and_eq_true_iff.mp h).2

theorem getStatus : ∀ x0, Statement (Instr.getStatus x0) :=
  fun _ => of_frame rfl fun _ => Nat.le_of_ble_eq_true rfl

theorem run : ∀ x0, Statement (Instr.run x0) := fun _ => of_frame rfl fun _ => Nat.le_of_ble_eq_true rfl

theorem halt : ∀ x0, Statement (Instr.halt x0) := fun _ => of_frame rfl fun _ => Nat.le_of_ble_eq_true rfl

theorem resume : ∀ x0, Statement (Instr.resume x0) := fun _ => of_frame rfl fun _ => Nat.le_of_ble_eq_true rfl

theorem restart : ∀ x0, Statement (Instr.restart x0) :=
  fun _ => of_frame rfl fun _ => Nat.le_of_ble_eq_true rfl

theorem setConsoleLevel : ∀ x0 x1, Statement (Instr.setConsoleLevel x0 x1) :=
  fun _ _ => of_frame rfl fun _ => Nat.le_of_ble_eq_true rfl

theorem setClock : ∀ x0 x1, Statement (Instr.setClock x0 x1) :=
  fun _ _ => of_frame rfl fun _ => Nat.le_of_ble_eq_true rfl

theorem loadStation : ∀ x0 x1 x2 x3 x4 x5, Statement (Instr.loadStation x0 x1 x2 x3 x4 x5) :=
  fun _ _ _ _ _ _ => of_frame rfl fun _ => Nat.le_of_ble_eq_true rfl

theorem loadZone : ∀ x0 x1, Statement (Instr.loadZone x0 x1) :=
  fun _ _ => of_frame rfl fun _ => Nat.le_of_ble_eq_true rfl

theorem setZoneLimit : ∀ x0 x1, Statement (Instr.setZoneLimit x0 x1) :=
  fun _ _ => of_frame rfl fun _ => Nat.le_of_ble_eq_true rfl

theorem loadHead : ∀ x0 x1, Statement (Instr.loadHead x0 x1) :=
  fun _ _ => of_frame rfl fun _ => Nat.le_of_ble_eq_true rfl

theorem setTiming : ∀ x0 x1 x2 x3 x4, Statement (Instr.setTiming x0 x1 x2 x3 x4) :=
  fun _ _ _ _ _ => of_frame rfl fun _ => Nat.le_of_ble_eq_true rfl

theorem setLimits : ∀ x0 x1 x2 x3, Statement (Instr.setLimits x0 x1 x2 x3) :=
  fun _ _ _ _ => of_frame rfl fun _ => Nat.le_of_ble_eq_true rfl

theorem readStation : ∀ x0 x1, Statement (Instr.readStation x0 x1) :=
  fun _ _ => of_frame rfl fun _ => Nat.le_of_ble_eq_true rfl

theorem readZone : ∀ x0 x1, Statement (Instr.readZone x0 x1) :=
  fun _ _ => of_frame rfl fun _ => Nat.le_of_ble_eq_true rfl

theorem queryZone : ∀ x0 x1 x2, Statement (Instr.queryZone x0 x1 x2) :=
  fun _ _ _ => of_frame rfl fun _ => Nat.le_of_ble_eq_true rfl

theorem readHead : ∀ x0 x1, Statement (Instr.readHead x0 x1) :=
  fun _ _ => of_frame rfl fun _ => Nat.le_of_ble_eq_true rfl

theorem setFreeboard : ∀ x0 x1 x2, Statement (Instr.setFreeboard x0 x1 x2) :=
  fun _ _ _ => of_frame rfl fun _ => Nat.le_of_ble_eq_true rfl

theorem sampleNow : ∀ x0, Statement (Instr.sampleNow x0) :=
  fun _ => of_frame rfl fun _ => Nat.le_of_ble_eq_true rfl

theorem ackTrip : ∀ x0 x1, Statement (Instr.ackTrip x0 x1) :=
  fun _ _ => of_frame rfl fun _ => Nat.le_of_ble_eq_true rfl

theorem appendStep : ∀ x0 x1, Statement (Instr.appendStep x0 x1) :=
  fun _ _ => of_frame rfl fun _ => Nat.le_of_ble_eq_true rfl

theorem cancelStep : ∀ x0 x1, Statement (Instr.cancelStep x0 x1) :=
  fun _ _ => of_frame rfl fun _ => Nat.le_of_ble_eq_true rfl

theorem endStep : ∀ x0 x1, Statement (Instr.endStep x0 x1) :=
  fun _ _ => of_frame rfl fun _ => Nat.le_of_ble_eq_true rfl

theorem purgeSteps : ∀ x0, Statement (Instr.purgeSteps x0) :=
  fun _ => of_frame rfl fun _ => Nat.le_of_ble_eq_true rfl

theorem readStep : ∀ x0 x1, Statement (Instr.readStep x0 x1) :=
  fun _ _ => of_frame rfl fun _ => Nat.le_of_ble_eq_true rfl

theorem readPlan : ∀ x0 x1, Statement (Instr.readPlan x0 x1) :=
  fun _ _ => of_frame rfl fun _ => Nat.le_of_ble_eq_true rfl

theorem trimPour : ∀ x0 x1, Statement (Instr.trimPour x0 x1) :=
  fun _ _ => of_frame rfl fun _ => Nat.le_of_ble_eq_true rfl

theorem openBill : ∀ x0 x1, Statement (Instr.openBill x0 x1) :=
  fun _ _ => of_frame rfl fun _ => Nat.le_of_ble_eq_true rfl

theorem closeBill : ∀ x0, Statement (Instr.closeBill x0) :=
  fun _ => of_frame rfl fun _ => Nat.le_of_ble_eq_true rfl

theorem readBillOpen : ∀ x0 x1, Statement (Instr.readBillOpen x0 x1) :=
  fun _ _ => of_frame rfl fun _ => Nat.le_of_ble_eq_true rfl

theorem readBillNext : ∀ x0, Statement (Instr.readBillNext x0) :=
  fun _ => of_frame rfl fun _ => Nat.le_of_ble_eq_true rfl

theorem readBillEnd : ∀ x0, Statement (Instr.readBillEnd x0) :=
  fun _ => of_frame rfl fun _ => Nat.le_of_ble_eq_true rfl

theorem issueBill : ∀ x0 x1, Statement (Instr.issueBill x0 x1) :=
  fun _ _ => of_frame rfl fun _ => Nat.le_of_ble_eq_true rfl

theorem clearUnbilled : ∀ x0, Statement (Instr.clearUnbilled x0) :=
  fun _ => of_frame rfl fun _ => Nat.le_of_ble_eq_true rfl

theorem nextNotice : ∀ x0, Statement (Instr.nextNotice x0) :=
  fun _ => of_frame rfl fun _ => Nat.le_of_ble_eq_true rfl

theorem clearNotices : ∀ x0 x1, Statement (Instr.clearNotices x0 x1) :=
  fun _ _ => of_frame rfl fun _ => Nat.le_of_ble_eq_true rfl

theorem setNoticeMask : ∀ x0 x1, Statement (Instr.setNoticeMask x0 x1) :=
  fun _ _ => of_frame rfl fun _ => Nat.le_of_ble_eq_true rfl

theorem fieldFrameReceived : ∀ x0 x1, Statement (Instr.fieldFrameReceived x0 x1) := fun _ _ => of_none rfl

theorem fieldFrameLengthDiscard : Statement Instr.fieldFrameLengthDiscard := of_none rfl

theorem fieldFrameTimeLimit : Statement Instr.fieldFrameTimeLimit := of_none rfl

theorem fieldFrameSent : Statement Instr.fieldFrameSent := of_none rfl

theorem replyTimeout : Statement Instr.replyTimeout := of_none rfl

theorem positionTimerExpiry : Statement Instr.positionTimerExpiry := of_none rfl

theorem scaleTimerExpiry : Statement Instr.scaleTimerExpiry := of_none rfl

theorem cycleTimerExpiry : Statement Instr.cycleTimerExpiry := of_none rfl

theorem clockMinute : Statement Instr.clockMinute := of_none rfl

theorem startByteReceived : ∀ x0, Statement (Instr.startByteReceived x0) := fun _ => of_none rfl

theorem fieldCheckWordMismatch : Statement Instr.fieldCheckWordMismatch := of_none rfl

end Sys2Proof.Laws.FrameCarries
end

