-- ==== Sys2Proof/Tests/Slice0.lean ====
section
/-! SUPPORT. The model's own tests: small states, one step each, and for every statement states and operands that meet
its hypotheses. -/

namespace Sys2Proof.Tests

open Sys2Proof Sys2Proof.Machine

set_option Elab.async false

/-! ## Small states -/

/-- The state after one command. -/
def after (c : Instr) (s : State) : State :=
  match exec c s with
  | .next t => t
  | .fault _ | .refused _ => State.reset

/-- Kind, tag and payload of the last answer made ready. -/
def lastAnswer (s : State) : Option (AnswerKind × Byte × List Byte) :=
  s.sport.ready.getLast?.map fun a => (a.kind, a.tag, a.payload)

def station (k : StationKind) (unit : Byte) : Station := { present := true, kind := k, unit, relayClass := .free }

/-- A box of 0 to 100 on every axis but rail. -/
def box (low high : Word32) : Box :=
  { railMin := low, railMax := high, slewMin := 0, slewMax := 100, reachMin := 0, reachMax := 100, lowerMin := 0,
    lowerMax := 100 }

/-- A HOLD zone of hold 1. -/
def holdZone : Zone :=
  { Zone.initial with present := true, zoneType := .hold, level := 3, hold := some 0, box := box 0 100 }

def parkZone : Zone := { Zone.initial with present := true, zoneType := .park, level := 3, box := box 200 300 }

/-- The route from zone 1 to zone 2. -/
def routeZone : Zone :=
  { Zone.initial with present := true, zoneType := .route, level := 3, fromZone := 1, toZone := 2 }

def head0 : Head :=
  { Head.initial with present := true, station := 4, hold := some 0, watch := 10, alarm := 20, trip := 30, hysteresis := 2,
                      persistence := 2 }

/-- CONFIG with drive, gate and scale of spout A at 1, 2, 3, head 0 at 4 and another station at 5; zones 1, 2, 3. -/
def loaded : State :=
  { State.reset with
    stations := ((((State.reset.stations.set 0 (station .spoutDrive 0)).set 1 (station .feedGate 0)).set 2
      (station .beltScale 0)).set 3 (station .dustHead 0)).set 4 (station .other 0)
    zones := { entries := ((State.reset.zones.entries.set 1 holdZone).set 2 parkZone).set 3 routeZone, limit := 4 }
    heads := State.reset.heads.set 0 head0 }

/-- RUN with spout A settled in zone 1, its gate CLOSED, the line free and nothing waiting. -/
def running : State :=
  { loaded with
    runc := { loaded.runc with state := .run }
    zones := { loaded.zones with entries := loaded.zones.entries.set 1 { holdZone with owner := some .a } }
    spouts := { loaded.spouts with a := { SpoutRec.initial with state := .settled, current := 1, posValid := true } }
    gates := { loaded.gates with a := { state := .rest .closed, confirmed := 0 } }
    timers := { position := some 100, scale := some 500 }
    cycle := { Cycle.initial with timer := some 1000 } }

def halted : State := { running with runc := { state := .halt, haltCause := some .request, allStop := some .sent } }

/-- A PLAN step of spout A over hold 1, COUNT to 100. -/
def stepOf (n : Word16) (x : StepState) : StepRec :=
  { number := n, kind := .plan, spout := .a, hold := 0, mode := .count, target := 100, gateSetting := 8,
    topOffThreshold := 0, topOffSetting := 0, openBy := .supervisor, after := none, poured := 0, inTopOff := false,
    state := x }

/-- The running state with this plan. -/
def planned (l : List StepRec) : State := { running with plan := l, stepCounter := 50 }

/-- The running state with this work on the line, to station `st`, waiting for its answer. -/
def waitingFor (w : Work) (st : Byte) : State :=
  { running with line := { running.line with engine := .awaiting { work := w, station := st, fieldTag := 7 } 20 } }

/-- The answer that matches it. -/
def answerFrom (st : Byte) (payload : List Byte) : Frame :=
  { dest := 0, source := st, kind := 0xC0, tag := 7, flags := 0, payload }

def billOf (n : Word16) (x : BillState) : Bill :=
  { number := n, state := x, openedAt := 3, closedAt := 0, gaps := 0, steps := 0, holds := Vector.replicate 9 0,
    unplaced := 0, total := 0, readThrough := false }

/-- The running state with one bill, in slot 0. -/
def billed (b : Bill) : State := { running with bills := running.bills.set 0 (some b) }

/-- The running state with the cursor at an item of bill 9. -/
def reading (b : Bill) (item : Nat) : State :=
  { billed b with stack := { running.stack with shared := .cursor 9 item } }

/-- Fields of LOAD_ZONE; the hold is 9, the route fields name zone 7. -/
def zoneOf (index zoneType : Byte) (b : Box) : ZoneFields :=
  { index, present := true, zoneType, level := 3, hold := 9, box := b, fromZone := 7, toZone := 7 }

def headOf (index persistence : Byte) : HeadFields :=
  { index, present := true, station := 4, hold := 0, watch := 1, alarm := 2, trip := 3, hysteresis := 0, persistence,
    spare := 0 }

def stepFields (openBy : Byte) (link : Word16) : StepFields :=
  { spout := 0, hold := 1, mode := 0, target := 100, gateSetting := 8, topOffThreshold := 0, topOffSetting := 0, openBy,
    after := link }

def trimFields (gateSetting : Byte) : TrimFields := { spout := 0, hold := 1, target := 5, gateSetting, openBy := 0 }

def moveOf (target route : Byte) (rail : Word32) : MoveFields :=
  { spout := .a, target, route, level := 2, rail, slew := 5, reach := 5, lower := 5 }

def gateOf (x : Setting) : GateFields := { spout := .a, level := 2, setting := x }

/-- A QUEUED entry. -/
def entryOf (tag dest : Byte) (b : RelayBody) : RelayEntry := { tag, dest, body := b, onLine := false }

/-- A state with this entry in the relay queue, its place reserved. -/
def holding (e : RelayEntry) (s : State) : State :=
  { s with relayQueue := [e], sport := { s.sport with reserved := [e.tag] } }

theorem takenReset : Taken State.reset := ⟨rfl, rfl, by decide⟩
theorem takenLoaded : Taken loaded := ⟨rfl, rfl, by decide⟩
theorem takenRunning : Taken running := ⟨rfl, rfl, by decide⟩
theorem takenHalted : Taken halted := ⟨rfl, rfl, by decide⟩
theorem takenPlanned (l : List StepRec) : Taken (planned l) := ⟨rfl, rfl, (by decide : running.placesUsed < 16)⟩
theorem takenReading (b : Bill) (n : Nat) : Taken (reading b n) := ⟨rfl, rfl, (by decide : running.placesUsed < 16)⟩
theorem takenBilled (b : Bill) : Taken (billed b) := ⟨rfl, rfl, (by decide : running.placesUsed < 16)⟩

/-! ## WellFormed: a term each check refuses -/

/-- 49 bytes. -/
def tooLong : List Byte := List.replicate 49 0

theorem test_wf_supervisorFrame_payload :
    (Instr.supervisorFrame { dest := 0, source := 62, kind := 0x10, tag := 0, flags := 0, payload := tooLong } 0).wf
      = false := by decide
theorem test_wf_fieldFrameReceived_payload :
    (Instr.fieldFrameReceived { dest := 0, source := 1, kind := 0xC0, tag := 0, flags := 0, payload := tooLong } 0).wf
      = false := by decide
theorem test_wf_move_station : (Instr.move 0 0 (moveOf 2 3 250)).wf = false := by decide
theorem test_wf_gate_station : (Instr.gate 0 61 (gateOf 0)).wf = false := by decide
theorem test_wf_plain_station : (Instr.plain 0 63 []).wf = false := by decide
theorem test_wf_plain_payload : (Instr.plain 0 5 tooLong).wf = false := by decide
theorem test_wf_plain_longest : (Instr.plain 0 60 (List.replicate 48 0)).wf = true := by decide

/-! ## The link -/

/-- The register after the nine digits, the value known for this CRC. -/
theorem test_crc_of_the_nine_digits :
    crc16 [0x31, 0x32, 0x33, 0x34, 0x35, 0x36, 0x37, 0x38, 0x39] = 0x29B1#16 := by decide +kernel
theorem test_move_payload_bytes : (moveOf 2 3 250).bytes = [0, 2, 3, 2, 0, 0, 0, 250, 0, 5, 0, 5, 0, 5] := by decide
theorem test_loadZone_frame_length :
    (frameOf (.loadZone 1 (zoneOf 1 0 (box 0 100)))).map (·.payload.length) = some 28 := by decide
theorem test_supervisorFrame_runs_its_request :
    (after (.supervisorFrame (supFrame 0 0x10 9 [0x01]) (supFrame 0 0x10 9 [0x01]).check) State.reset).sport.ready.length
      = 1 := by decide +kernel
theorem test_supervisorFrame_unknown_code :
    lastAnswer (after (.supervisorFrame (supFrame 0 0x10 9 [0x60]) (supFrame 0 0x10 9 [0x60]).check) State.reset)
      = some (.reply, 9, [0x25]) := by decide +kernel
theorem test_lengthDiscard_sets_linkFault :
    (after .supervisorFrameLengthDiscard State.reset).notices.subjects[(12 : Fin 13)] = 2 := by decide +kernel
theorem test_startByte_then_time_limit :
    (after .supervisorFrameTimeLimit (after (.startByteReceived .supervisor) State.reset)).notices.subjects[(12 : Fin 13)]
      = 3 := by decide +kernel
theorem test_upstream_flags_of_config :
    (after .upstreamFrameStart (after (.setClock 4 9) State.reset)).sport.sending.map (fun f => (f.kind, f.tag, f.flags))
      = some (0x90, 4, 8) := by decide +kernel
theorem test_upstream_sent_frees_the_place :
    (after .upstreamFrameSent (after .upstreamFrameStart (after (.setClock 4 9) State.reset))).placesUsed = 0 := by
  decide +kernel
theorem test_restart_reply_restarts :
    (after .upstreamFrameSent (after .upstreamFrameStart (after (.restart 4) running))).runc.state = .config := by
  decide +kernel

/-! ## Run control -/

theorem test_run_enters_run : (after (.run 1) loaded).runc.state = .run := by decide +kernel
theorem test_run_sends_the_close_first :
    (after (.run 1) loaded).line.engine = .sending
      { work := .order (.gate .a 0) .gate 1, station := 2, fieldTag := 0 }
      { dest := 2, source := 0, kind := 0x39, tag := 0, flags := 0, payload := [0] } := by decide +kernel
theorem test_run_incomplete_map : lastAnswer (after (.run 1) State.reset) = some (.reply, 1, [0x23, 1, 0]) := by
  decide +kernel
theorem test_halt_posts_all_stop :
    (after (.halt 1) running).line.engine.transaction?.map (·.work) = some (.order .allStop .runc 1) := by decide +kernel
theorem test_halt_in_config : lastAnswer (after (.halt 1) State.reset) = some (.reply, 1, [0x20]) := by decide +kernel
theorem test_resume : (after (.resume 1) halted).runc = { state := .run, haltCause := none, allStop := some .sent } := by
  decide +kernel
theorem test_getStatus_length : (after (.getStatus 1) State.reset).sport.ready.map (·.payload.length) = [46] := by
  decide +kernel
theorem test_consoleLevel_needs_key :
    lastAnswer (after (.setConsoleLevel 1 0) State.reset) = some (.reply, 1, [0x27]) := by decide +kernel
theorem test_consoleLevel_with_key :
    (after (.setConsoleLevel 1 0) (after .maintenanceKeyActive State.reset)).console = 0 := by decide +kernel
theorem test_key_inactive_raises_level :
    (after .maintenanceKeyInactive (after (.setConsoleLevel 1 0) (after .maintenanceKeyActive State.reset))).console = 1 := by
  decide +kernel
theorem test_restartInput_clears_claims :
    ((after .restartInput running).zone 1).owner = none ∧ (after .restartInput running).pins.restartAsserted = true := by
  decide +kernel
theorem test_restartInputRelease :
    (after .restartInputRelease (after .restartInput running)).pins.restartAsserted = false := by decide +kernel
theorem test_powerOn_reads_straps :
    supervisorRate (after (.powerOn true true) running).pins = 115200 ∧ (after (.powerOn true true) running).plan = [] := by
  decide +kernel
theorem test_clockMinute : (after .clockMinute State.reset).clock.minutes = 1 := by decide +kernel
theorem test_clockMinute_rolls_over :
    (after .clockMinute (after (.setClock 1 0xFFFFFFFF) State.reset)).clock.minutes = 0 := by decide +kernel

/-! ## Configuration and reading -/

theorem test_loadStation_drive_is_free :
    (after (.loadStation 1 60 true 0 1 1) State.reset).stations[(59 : Fin 60)] = station .spoutDrive 1 := by
  decide +kernel
theorem test_loadStation_unit_range :
    lastAnswer (after (.loadStation 1 60 true 3 16 0) State.reset) = some (.reply, 1, [0x25]) := by decide +kernel
theorem test_loadZone_slew_is_signed :
    ((after (.loadZone 1 (zoneOf 63 1 { box 0 1 with slewMin := 0xF8F8 })) State.reset).zone 63)
      = { parkZone with zoneType := .transit, box := { box 0 1 with slewMin := 0xF8F8 } } := by decide +kernel
theorem test_loadZone_null_zone :
    lastAnswer (after (.loadZone 1 (zoneOf 0 1 (box 0 1))) State.reset) = some (.reply, 1, [0x25]) := by decide +kernel
theorem test_setZoneLimit : (after (.setZoneLimit 1 64) State.reset).zones.limit = 64 := by decide +kernel
theorem test_loadHead_persistence :
    lastAnswer (after (.loadHead 1 (headOf 0 9)) State.reset) = some (.reply, 1, [0x25]) := by decide +kernel
theorem test_setTiming_is_staged :
    (after (.setTiming 1 2 20 100 200) State.reset).settings.staged.cyclePeriod = 200 ∧
      (after (.setTiming 1 2 20 100 200) State.reset).settings.inUse.cyclePeriod = 1000 := by decide +kernel
theorem test_setLimits : (after (.setLimits 1 2 31 5000) State.reset).settings.staged.spoutsFitted = 2 := by
  decide +kernel
theorem test_readStation : lastAnswer (after (.readStation 1 3) loaded) = some (.reply, 1, [0, 3, 1, 2, 0, 0]) := by
  decide +kernel
theorem test_readZone_length : (after (.readZone 1 1) loaded).sport.ready.map (·.payload.length) = [32] := by
  decide +kernel
theorem test_queryZone_admits : lastAnswer (after (.queryZone 1 1 2) loaded) = some (.reply, 1, [0, 1, 0, 3, 1, 0, 1]) := by
  decide +kernel
theorem test_readHead_range : lastAnswer (after (.readHead 1 16) loaded) = some (.reply, 1, [0x25]) := by decide +kernel

/-! ## Travel, gates, dust -/

theorem test_move_is_queued_and_sent :
    (after (.move 3 1 (moveOf 2 3 250)) running).spouts.a.state = .moving ∧
      ((after (.move 3 1 (moveOf 2 3 250)) running).zone 2).owner = some .a ∧
      (after (.move 3 1 (moveOf 2 3 250)) running).line.engine.transaction?.map (·.work) = some (.relay 3) := by
  decide +kernel
theorem test_move_route_type :
    lastAnswer (after (.move 3 1 (moveOf 2 1 250)) running) = some (.refusal, 3, [0x3D, 1, 0x20]) := by decide +kernel
theorem test_gate_is_trimmed :
    (after (.gate 3 2 (gateOf 31)) (planned [stepOf 1 .active])).line.engine = .sending
      { work := .relay 3, station := 2, fieldTag := 0 }
      { dest := 2, source := 0, kind := 0x21, tag := 0, flags := 0, payload := [0, 2, 8] } := by decide +kernel
theorem test_gate_without_step :
    lastAnswer (after (.gate 3 2 (gateOf 1)) running) = some (.refusal, 3, [0x49, 0, 0x21]) := by decide +kernel
theorem test_plain_is_relayed :
    (after (.plain 3 5 [1, 2]) State.reset).sport.ready.map (·.payload) = [[0x14, 5, 0x22]] ∧
      (after (.plain 3 5 [1, 2]) loaded).relayQueue.map (·.onLine) = [true] := by decide +kernel
theorem test_setFreeboard_range :
    lastAnswer (after (.setFreeboard 1 9 5001) running) = some (.reply, 1, [0x25]) := by decide +kernel
theorem test_setFreeboard : (after (.setFreeboard 1 9 5000) running).freeboard[(8 : Hold)] = 5000 := by decide +kernel
theorem test_sampleNow_starts :
    (after (.sampleNow 1) running).cycle.pendingHead = some 0 := by decide +kernel
theorem test_ackTrip_outside_trip : lastAnswer (after (.ackTrip 1 0) running) = some (.reply, 1, [0, 0]) := by
  decide +kernel
theorem test_cycleTimerExpiry : (after .cycleTimerExpiry running).cycle.state = .cycling := by decide +kernel
theorem test_positionTimerExpiry_polls :
    (after .positionTimerExpiry running).line.engine.transaction?.map (·.work) = some (.poll (.position .a)) := by
  decide +kernel
theorem test_scaleTimerExpiry_polls :
    (after .scaleTimerExpiry running).line.engine.transaction?.map (·.station) = some 3 := by decide +kernel

/-! ## The plan and the bills -/

theorem test_appendStep_activates :
    (after (.appendStep 1 (stepFields 1 0)) running).plan.map (fun r => (r.number, r.state)) = [(1, .active)] := by
  decide +kernel
theorem test_cancelStep : (after (.cancelStep 1 1) (planned [stepOf 1 .active])).plan.map (·.state) = [.cancelled] := by
  decide +kernel
theorem test_endStep_sets_notice :
    (after (.endStep 1 1) (planned [stepOf 1 .active])).notices.subjects[(9 : Fin 13)] = 1 := by decide +kernel
theorem test_purgeSteps :
    lastAnswer (after (.purgeSteps 1) (planned [stepOf 1 .done, stepOf 2 .suspended])) = some (.reply, 1, [0, 1]) := by
  decide +kernel
theorem test_readStep_length :
    (after (.readStep 1 2) (planned [stepOf 1 .done, stepOf 2 .held])).sport.ready.map (·.payload.length) = [25] := by
  decide +kernel
theorem test_readPlan_end : lastAnswer (after (.readPlan 1 1) (planned [stepOf 1 .done])) = some (.reply, 1, [2, 1]) := by
  decide +kernel
theorem test_trimPour_pushes :
    (after (.trimPour 1 (trimFields 3)) (planned [stepOf 1 .active])).plan.map (fun r => (r.number, r.state)) = [(50, .active), (1, .suspended)] := by
  decide +kernel
theorem test_openBill : lastAnswer (after (.openBill 1 9) running) = some (.reply, 1, [0, 0]) := by decide +kernel
theorem test_closeBill :
    lastAnswer (after (.closeBill 1) (billed (billOf 9 .opened))) = some (.reply, 1, [0, 0, 9, 0, 0, 0, 0]) := by
  decide +kernel
theorem test_readBillOpen :
    (after (.readBillOpen 1 9) (billed (billOf 9 .closed))).stack.shared = .cursor 9 0 := by decide +kernel
theorem test_readBillNext_marks_read :
    ((after (.readBillNext 1) (reading (billOf 9 .closed) 13)).bills[(0 : Fin 8)]).map (·.readThrough) = some true := by
  decide +kernel
theorem test_readBillEnd : (after (.readBillEnd 1) (reading (billOf 9 .closed) 4)).stack.shared = .empty := by
  decide +kernel
theorem test_issueBill_not_read :
    lastAnswer (after (.issueBill 1 9) (billed (billOf 9 .closed))) = some (.reply, 1, [Code.notRead.byte]) := by
  decide +kernel
theorem test_clearUnbilled :
    lastAnswer (after (.clearUnbilled 1) { running with unbilled := 258 }) = some (.reply, 1, [0, 0, 0, 1, 2]) := by
  decide +kernel
theorem test_nextNotice :
    lastAnswer (after (.nextNotice 1) (after .supervisorFrameLengthDiscard State.reset)) = some (.reply, 1, [0, 13, 0, 2]) := by
  decide +kernel
theorem test_clearNotices :
    (after (.clearNotices 1 0x2000) (after .supervisorFrameLengthDiscard State.reset)).attention = false := by
  decide +kernel
theorem test_setNoticeMask_range : lastAnswer (after (.setNoticeMask 1 1) State.reset) = some (.reply, 1, [0x25]) := by
  decide +kernel

/-! ## The field line -/

theorem test_position_answer_breach :
    (after (.fieldFrameReceived (answerFrom 1 (positionPayload ⟨500, 5, 5, 5⟩ 3))
      (answerFrom 1 (positionPayload ⟨500, 5, 5, 5⟩ 3)).check) (waitingFor (.poll (.position .a)) 1)).spouts.a.lostCause
      = some .breach := by decide +kernel
theorem test_replyTimeout_relay :
    lastAnswer (after .replyTimeout (holding (entryOf 3 5 (.plain [1])) (waitingFor (.relay 3) 5)))
      = some (.refusal, 3, [0x17, 5, 0x22]) := by decide +kernel
theorem test_fieldFrameSent_awaits :
    (after .fieldFrameSent (after .positionTimerExpiry running)).line.engine
      = .awaiting { work := .poll (.position .a), station := 1, fieldTag := 0 } 20 := by decide +kernel
theorem test_field_start_byte_and_discards :
    (after (.startByteReceived .field) State.reset).sport.fldRx = .frame 0 ∧
      (after .fieldFrameLengthDiscard (after (.startByteReceived .field) State.reset)).sport.fldRx = .hunt ∧
      (after .fieldCheckWordMismatch (after (.startByteReceived .field) State.reset)).sport.fldRx = .hunt ∧
      (after .fieldFrameTimeLimit (after (.startByteReceived .field) State.reset)).sport.fldRx = .hunt := by decide +kernel
theorem test_tick_counts :
    (match step (after (.startByteReceived .field) State.reset) with
      | .next t => (t.sport.fldRx, t.clock.ticks)
      | _ => (.hunt, 0)) = (.frame 1, 1) := by decide +kernel

/-! ## Witnesses: states and operands that meet the hypotheses of each statement, at the edges of its clauses -/

/-- No expiry is due where no frame, transaction or timer runs and the minute is not full. -/
theorem notDue_reset (c : Instr) : ¬ Due State.reset c := by
  rintro (⟨n, h, _⟩ | ⟨n, h, _⟩ | ⟨t, h⟩ | h | h | h | h)
  · cases h
  · cases h
  · cases h
  · cases h
  · cases h
  · cases h
  · exact absurd h (by decide)

/-- The running state with these poll timers, the cycle timer stopped. -/
def timed (position scale : Nat) : State :=
  { running with timers := { position := some position, scale := some scale }, cycle := Cycle.initial }

theorem test_witness_EmptyQueueTicksOrTakesADueExpiry :
    (State.reset.pending = [] ∧ ∀ c, ¬ Due State.reset c) ∧
    ((timed 0 1).pending = [] ∧ Due (timed 0 1) .positionTimerExpiry ∧ ∀ c, Due (timed 0 1) c → c = .positionTimerExpiry) ∧
    (Due (timed 0 0) .positionTimerExpiry ∧ Due (timed 0 0) .scaleTimerExpiry) ∧
    Due { State.reset with sport := { State.reset.sport with supRx := .frame 10 } } .supervisorFrameTimeLimit ∧
    Due { State.reset with sport := { State.reset.sport with fldRx := .frame 11 } } .fieldFrameTimeLimit ∧
    Due { State.reset with line := { State.reset.line with engine := .awaiting ⟨.relay 3, 5, 7⟩ 0 } } .replyTimeout ∧
    Due { State.reset with cycle := { Cycle.initial with timer := some 0 } } .cycleTimerExpiry ∧
    Due { State.reset with clock := { minutes := 0, ticks := 60000 } } .clockMinute := by
  refine ⟨⟨rfl, notDue_reset⟩, ⟨rfl, .position rfl, fun c h => ?_⟩, ⟨.position rfl, .scale rfl⟩,
    .supervisorFrame 10 rfl (by decide), .fieldFrame 11 rfl (by decide), .reply _ rfl, .cycle rfl,
    .minute (Nat.le_refl _)⟩
  rcases h with ⟨n, h, _⟩ | ⟨n, h, _⟩ | ⟨t, h⟩ | h | h | h | h
  · cases h
  · cases h
  · cases h
  · rfl
  · exact absurd h (by decide)
  · exact absurd h (by decide)
  · exact absurd h (by decide)

theorem test_tick_counts_down_and_expires :
    (match step (timed 2 9) with | .next t => t.timers | _ => (timed 0 0).timers) = { position := some 1, scale := some 8 } ∧
    (match step (timed 0 9) with | .next t => t.timers.position | _ => none) = some 100 := by decide +kernel

theorem test_witness_RequestFramesAreRead :
    (Instr.plain 1 60 (List.replicate 48 7)).wf = true ∧
    frameOf (.plain 1 60 (List.replicate 48 7)) = some (supFrame 60 0x22 1 (List.replicate 48 7)) := by decide +kernel

theorem test_witness_FrameChecksOfR8 :
    let f := supFrame 0 0x10 1 [0x01]
    f.wf = true ∧ { f with source := 61 }.source ≠ 62 ∧ supervisorKind 0x11 = false ∧
    destinationSuits { f with dest := 61 } = false ∧ destinationSuits { f with dest := 60 } = false ∧
    destinationSuits (supFrame 0 0x20 1 []) = false ∧ payloadFits (supFrame 0 0x10 1 []) = false ∧
    payloadFits (supFrame 1 0x21 1 [1, 3, 32]) = false ∧ payloadFits (supFrame 1 0x21 1 [1, 3, 31]) = true ∧
    supervisorKind f.kind = true ∧ destinationSuits f = true ∧ payloadFits f = true := by decide +kernel

theorem test_witness_RequestFitChecksOfR191 :
    Taken State.reset ∧ requestFits 0x51 [0] = false ∧ requestFits 0x51 [0, 0] = true ∧ requestFits 0x60 [] = false ∧
    requestFits 0x10 [1, 2, 0, 0, 0] = false ∧ requestFits 0x10 [1, 1, 0, 0, 0] = true := ⟨takenReset, by decide +kernel⟩

/-- CONFIG with all 16 output places in use. -/
def crowded : State := { State.reset with sport := { Sport.initial with reserved := List.replicate 16 1 } }

theorem test_witness_LinkFaultCauses :
    let f := supFrame 0 0x10 1 [0x01]
    f.wf = true ∧ f.check + 1 ≠ f.check ∧ State.reset.pins.restartAsserted = false ∧
    State.reset.sport.restartPending = false ∧ (after (.startByteReceived .supervisor) State.reset).sport.supRx = .frame 0 ∧
    16 ≤ crowded.placesUsed ∧ (after (.restart 1) State.reset).sport.restartPending = true ∧
    (after .restartInput State.reset).pins.restartAsserted = true := by decide +kernel

theorem test_witness_UpstreamFrameStartsWithItsFlags :
    let s := after (.setClock 1 0) State.reset
    s.pins.restartAsserted = false ∧ s.sport.sending = none ∧ s.sport.ready = [replyAnswer 1 .done []] := by
  decide +kernel

theorem test_witness_UpstreamSentAndRestartReply :
    let s := after .upstreamFrameStart (after (.setClock 1 0) State.reset)
    let t := after .upstreamFrameStart (after (.restart 1) State.reset)
    s.sport.sending ≠ none ∧ s.sport.ready = [replyAnswer 1 .done []] ∧ t.sport.sending ≠ none ∧
    t.sport.ready.map (·.isRestart) = [true] ∧ (Taken State.reset ∧ State.reset.sport.sending = none) ∧ Taken s :=
  ⟨by decide +kernel, by decide +kernel, by decide +kernel, by decide +kernel, ⟨takenReset, rfl⟩,
    ⟨by decide +kernel, by decide +kernel, by decide +kernel⟩⟩

theorem test_witness_RestartOfPlanAndBills :
    let s := { planned [{ stepOf 1 .suspended with poured := 100 }, { stepOf 2 .active with poured := 99 }, stepOf 3 .done]
      with bills := (billed { billOf 9 .opened with gaps := 0xFFFF }).bills }
    s.pins.restartAsserted = false ∧ (after .restartInput s).plan.map (·.state) = [.done, .waiting, .done] ∧
    ((after .restartInput s).bills[(0 : Fin 8)]).map (fun b => (b.gaps, b.steps)) = some (0xFFFF, 1) := by decide +kernel

theorem test_witness_ConsoleLevelAndKey :
    Taken State.reset ∧ 3 < (4 : Byte).toNat ∧ State.reset.pins.keyActive = false ∧ (3 : Level).val = (3 : Byte).toNat :=
  ⟨takenReset, by decide, rfl, rfl⟩

theorem test_witness_RunFromConfig :
    Taken loaded ∧ loaded.runc.state = .config ∧ MapComplete loaded ∧ SettingsAgree loaded.settings.staged := by
  refine ⟨takenLoaded, rfl, ⟨⟨by decide +kernel, by decide +kernel, by decide +kernel⟩, ?_, ?_⟩, by decide, by decide⟩
  · exact fun h => absurd h (by decide)
  · intro i hi
    have : i = 0 := by revert i; decide +kernel
    subst this
    exact ⟨station .dustHead 0, by decide +kernel, by decide +kernel⟩

theorem test_run_names_the_first_item :
    (mapItems State.reset).find? (fun x => x.1) = some (true, 1, 0) ∧
    (mapItems { loaded with stations := loaded.stations.set 3 (station .dustHead 1) }).find? (fun x => x.1)
      = some (true, 4, 0) ∧
    lastAnswer (after (.run 1) { loaded with stations := loaded.stations.set 3 (station .dustHead 1) })
      = some (.reply, 1, [0x23, 4, 0]) := by decide +kernel

theorem test_run_while_unknown :
    (∀ sp, (loaded.spouts.get sp).state = .unknown) ∧ (∀ r ∈ loaded.plan, r.state ≠ .active) :=
  ⟨fun sp => by cases sp <;> rfl, by decide⟩

theorem test_witness_RunHaltResumeWithoutChange :
    (Taken running ∧ running.runc.state = .run) ∧ (Taken halted ∧ halted.runc.state = .halt) ∧
    (Taken State.reset ∧ State.reset.runc.state = .config ∧ ¬ MapComplete State.reset) ∧
    ¬ SettingsAgree { Settings.default with positionPeriod := 600 } ∧
    ¬ SettingsAgree { Settings.default with replyTimeout := 100 } ∧
    ({ halted with gates := State.reset.gates }.gates.get .a).state ≠ .rest .closed ∧
    (fitted { halted with settings := { halted.settings with inUse := { Settings.default with spoutsFitted := 2 } } } .b
      = true ∧ (halted.gates.get .a).state = .rest .closed ∧ (halted.gates.get .b).state ≠ .rest .closed) := by
  refine ⟨⟨takenRunning, rfl⟩, ⟨takenHalted, rfl⟩, ⟨takenReset, rfl, fun h => ?_⟩, ?_, ?_, ?_, ?_⟩
  · exact absurd h.1.1 (by decide +kernel)
  · exact fun h => absurd h.2 (by decide)
  · exact fun h => absurd h.1 (by decide)
  · decide
  · decide

/-- Step 1 is ACTIVE and the gate of spout A is open. -/
def pouring : State :=
  { planned [stepOf 1 .active] with gates := { running.gates with a := { state := .rest .opened, confirmed := 8 } } }

theorem test_witness_HaltFromRun : Taken running ∧ running.runc.state = .run ∧
    haltRemoves (entryOf 3 1 (.move (moveOf 2 3 250) .zoneChange true)) = true ∧
    (∀ o ∈ pouring.orders, o.station ≠ 63) ∧ fitted pouring .a = true ∧ (pouring.gates.get .a).state ≠ .rest .closed ∧
    stationOf pouring .feedGate .a = some 2 ∧ blockCause pouring .a = 0 ∧
    (haltStopped .request (heard pouring)).orders.map (fun o => (o.station, o.kind))
      = [(63, .allStop), (2, .gate .a 0)] ∧
    (haltStopped .request (heard pouring)).plan.map (·.state) = [.held] ∧
    (let s := { running with spouts := { running.spouts with a := { running.spouts.a with state := .moving, target := 2 } } }
     (s.spouts.get .a).state = .moving ∧ (s.spouts.get .a).target.val = (moveOf 2 3 250).target.toNat) :=
  ⟨takenRunning, rfl, rfl, by decide, by decide +kernel⟩

theorem test_witness_ResumeFromHalt :
    Taken halted ∧ halted.runc.state = .halt ∧ ∀ sp, fitted halted sp = true → (halted.gates.get sp).state = .rest .closed :=
  ⟨takenHalted, rfl, fun sp => by cases sp <;> decide⟩

theorem test_witness_config_requests :
    (Taken State.reset ∧ State.reset.runc.state = .config) ∧ (Taken running ∧ running.runc.state ≠ .config) ∧
    ((60 : Byte).toNat ≤ 60 ∧ ¬ (61 : Byte).toNat ≤ 60) ∧ ((64 : Byte).toNat ≤ 64 ∧ ¬ (1 ≤ (0 : Byte).toNat)) ∧
    (31 : Setting).val = (31 : Byte).toNat ∧ (5000 : Word16).toNat ≤ 5000 ∧ (1 : Word16).toNat = 1 :=
  ⟨⟨takenReset, rfl⟩, ⟨takenRunning, by decide⟩, by decide, by decide, rfl, by decide, by decide⟩

theorem test_witness_reads :
    (Taken loaded ∧ (59 : Fin 60).val + 1 = (60 : Byte).toNat) ∧ (63 : ZoneIx).val = (63 : Byte).toNat ∧
    63 < (64 : Byte).toNat ∧ (3 : Byte).toNat ≤ 3 ∧ 3 < (4 : Byte).toNat ∧ (15 : HeadIx).val = (15 : Byte).toNat ∧
    15 < (16 : Byte).toNat ∧ ((loaded.zone 1).zoneType = .hold ∧ (loaded.zone 1).hold = some 0) ∧
    (loaded.zone 2).zoneType ≠ .hold := ⟨⟨takenLoaded, rfl⟩, by decide +kernel⟩

theorem test_witness_SetFreeboard :
    Taken running ∧ (8 : Hold).val + 1 = (9 : Byte).toNat ∧ (5000 : Word16).toNat ≤ 5000 ∧
    ¬ (5001 : Word16).toNat ≤ 5000 ∧ settledOver running .a 0 = true ∧ settledOver running .a 8 = false ∧
    (after (.setFreeboard 1 1 95)
      { running with spouts := { running.spouts with a := { running.spouts.a with position := ⟨5, 5, 5, 6⟩ } } }).spouts.a.overreach
      = true := ⟨takenRunning, by decide +kernel⟩

theorem test_witness_SampleNow :
    (Taken State.reset ∧ State.reset.runc.state = .config) ∧ (Taken running ∧ running.runc.state ≠ .config ∧
      running.cycle.state = .idle) ∧ (after (.sampleNow 1) running).cycle.state = .cycling ∧
    ((running.heads[(0 : HeadIx)]).present = true ∧ ∀ j : HeadIx, j < 0 → (running.heads[j]).present = false) ∧
    ∀ i : HeadIx, (State.reset.heads[i]).present = false :=
  ⟨⟨takenReset, rfl⟩, ⟨takenRunning, by decide, rfl⟩, by decide +kernel, ⟨by decide +kernel, by decide +kernel⟩,
    by decide +kernel⟩

/-- The running state with head 0 in TRIP after this sample. -/
def tripped (sample : Word16) : State :=
  { running with heads := running.heads.set 0 { head0 with state := .live .trip, sample, sampleValid := true } }

theorem test_witness_AckTrip :
    (Taken running ∧ (running.heads[(1 : HeadIx)]).present = false) ∧ (running.heads[(0 : HeadIx)]).state ≠ .live .trip ∧
    (Taken (tripped 27) ∧ ((tripped 27).heads[(0 : HeadIx)]).state = .live .trip) ∧
    27 + (((tripped 27).heads[(0 : HeadIx)]).hysteresis).toNat < (((tripped 27).heads[(0 : HeadIx)]).trip).toNat ∧
    ¬ 28 + (((tripped 28).heads[(0 : HeadIx)]).hysteresis).toNat < (((tripped 28).heads[(0 : HeadIx)]).trip).toNat ∧
    ((after (.ackTrip 1 0) (tripped 27)).heads[(0 : HeadIx)]).state = .live .alarm :=
  ⟨⟨takenRunning, by decide +kernel⟩, by decide +kernel, ⟨⟨rfl, rfl, by decide⟩, by decide +kernel⟩, by decide +kernel⟩

theorem test_witness_HeadJudgement :
    head0.Good ∧ { head0 with riseCount := 1, riseLevel := .alarm }.Good ∧
    (validSample 30 { head0 with riseCount := 1, riseLevel := .alarm }).state = .live .alarm ∧
    { head0 with state := .live .watch, fallCount := 1 }.Good ∧
    (validSample 7 { head0 with state := .live .watch, fallCount := 1 }).state = .live .quiet ∧
    (validSample 8 { head0 with state := .live .watch, fallCount := 1 }).state = .live .watch ∧
    (missSample { head0 with missCount := 1 }).state = .silent ∧
    (missSample { head0 with missCount := 1, state := .live .trip }).state = .live .trip ∧
    { head0 with state := .silent }.Good ∧ (validSample 30 { head0 with state := .silent }).state = .live .quiet ∧
    (validSample 7 { head0 with state := .live .watch }).fallCount = 1 ∧
    { head0 with trip := 4000, hysteresis := 500 }.Good := by
  refine ⟨⟨by decide, by decide, by decide, by decide, by decide, by decide, fun h => absurd rfl h⟩,
    ⟨by decide, by decide, by decide, by decide, by decide, by decide, fun _ => ⟨.quiet, rfl, by decide⟩⟩,
    by decide +kernel,
    ⟨by decide, by decide, by decide, by decide, by decide, by decide, fun h => absurd rfl h⟩, by decide +kernel,
    by decide +kernel, by decide +kernel, by decide +kernel,
    ⟨by decide, by decide, by decide, by decide, by decide, by decide, fun h => absurd rfl h⟩, by decide +kernel,
    by decide +kernel, ⟨by decide, by decide, by decide, by decide, by decide, by decide, fun h => absurd rfl h⟩⟩

/-- The pouring state with hold 1 at this dust state. -/
def dusted (d : Dust) : State := { pouring with holdDust := pouring.holdDust.set 0 d }

/-- A rise to ALARM sets DUST_ALARM and posts the reduce order; a rise to TRIP sets DUST_TRIP and posts the close. -/
theorem test_witness_HoldDustIsTheHighest :
    (let s := { dusted .alarm with settings := { running.settings with inUse := { Settings.default with alarmCap := 3 } } }
     let before := { s with holdDust := pouring.holdDust }
     s.holdDust ≠ before.holdDust ∧ fitted s .a = true ∧ currentHold s .a = some 0 ∧
     capNumber s (stepOf 1 .active) < capNumber before (stepOf 1 .active) ∧
     (dustKnown before s).orders = [{ station := 2, kind := .gate .a 3, poster := .gate }] ∧
     (dustKnown before s).notices.flags[(6 : Fin 13)] = true ∧ (dustKnown before s).notices.subjects[(6 : Fin 13)] = 1) ∧
    (dustKnown pouring (dusted .trip)).notices.flags[(1 : Fin 13)] = true ∧
    (dustKnown pouring (dusted .trip)).orders = [{ station := 2, kind := .gate .a 0, poster := .gate }] ∧
    activeStep running .a = none ∧ (head0.state ≠ .live .watch ∧ head0.countsFor 0 = true) := by decide +kernel

theorem test_witness_MoveChecksInOrder :
    running.zones.limit ≤ 64 ∧ Taken running ∧ fieldAddress 1 = true ∧ fieldAddress 0 = false ∧
    firstFailure (arrivalTable running 3 9 (.move (moveOf 2 3 250))) = some (.noStation, 9) ∧
    firstFailure (arrivalTable running 3 1 (.move (moveOf 2 3 250))) = none ∧
    firstFailure (moveTable running (moveOf 4 3 250)) = some (.zoneLimit, 4) ∧
    firstFailure (moveTable running (moveOf 2 3 301)) = some (.outOfZone, 0) := ⟨by decide, takenRunning, by decide +kernel⟩

theorem test_witness_MoveQueued :
    (firstFailure (moveTable running (moveOf 2 3 300)) = none ∧ moveClass running (moveOf 2 3 300) = .zoneChange) ∧
    (firstFailure (moveTable running (moveOf 1 0 100)) = none ∧ moveClass running (moveOf 1 0 100) = .sameZone) ∧
    (let s := { running with console := 0, spouts := { running.spouts with a := { running.spouts.a with state := .lost } } }
     firstFailure (moveTable s { moveOf 2 0 0 with level := 0 }) = none ∧
       moveClass s { moveOf 2 0 0 with level := 0 } = .recovery) := by decide +kernel

theorem test_witness_GateAndPlainChecksInOrder :
    Taken running ∧ fieldAddress 2 = true ∧
    firstFailure (arrivalTable running 3 1 (.gate (gateOf 1))) = some (.wrongKind, 1) ∧
    firstFailure (arrivalTable running 3 2 (.gate (gateOf 1))) = none ∧
    firstFailure (gateTable running .a) = some (.noStep, 0) ∧ [0#8].length ≤ 48 ∧
    firstFailure (arrivalTable running 3 2 .plain) = some (.wrongKind, 1) := ⟨takenRunning, by decide +kernel⟩

theorem test_witness_GateAndPlainQueued :
    (Taken (planned [stepOf 1 .active]) ∧ gateOf 31 ≠ gateOf 0) ∧ (gateOf 31).setting ≠ 0 ∧
    firstFailure (arrivalTable (planned [stepOf 1 .active]) 3 2 (.gate (gateOf 31))) = none ∧
    firstFailure (gateTable (planned [stepOf 1 .active]) .a) = none ∧
    firstFailure (arrivalTable running 3 5 .plain) = none ∧ (List.replicate 48 0#8).length ≤ 48 :=
  ⟨⟨takenPlanned _, by decide⟩, by decide +kernel⟩

theorem test_witness_DispatchRecheck :
    firstFailure (dispatchTable running (entryOf 3 9 (.plain []))) = some (.noStation, 9) ∧
    firstFailure (dispatchTable running (entryOf 3 5 (.plain []))) = none ∧
    firstFailure (dispatchTable running (entryOf 3 2 (.gate (gateOf 0) 0 false))) = none ∧
    firstFailure (dispatchTable (planned [stepOf 1 .active]) (entryOf 3 2 (.gate (gateOf 9) 9 false))) = none ∧
    firstFailure (dispatchTable (planned [stepOf 1 .active]) (entryOf 3 2 (.gate (gateOf 9) 0 true))) = none ∧
    firstFailure (dispatchTable running (entryOf 3 1 (.move (moveOf 1 0 5) .sameZone false))) = none ∧
    firstFailure (dispatchTable running (entryOf 3 1 (.move (moveOf 2 3 250) .zoneChange true)))
      = some (.targetDropped, 2) := by decide +kernel

/-- A GATE that found the cap 0 at its arrival goes out with the cap of its dispatch. -/
theorem test_gate_is_limited_again_at_dispatch :
    (arbitrate (holding (entryOf 3 2 (.gate (gateOf 31) 0 true)) (planned [stepOf 1 .active]))).line.engine = .sending
      { work := .relay 3, station := 2, fieldTag := 0 }
      { dest := 2, source := 0, kind := 0x21, tag := 0, flags := 0, payload := [0, 2, 8] } := by decide +kernel

theorem test_witness_ArbiterOrder :
    running.line.engine = .free ∧ running.pins.restartAsserted = false ∧
    (postAllStop running).orders = [{ station := 63, kind := .allStop, poster := .runc }] ∧
    (positionPolls running).polls = [{ station := 1, kind := .position .a }] ∧ running.line.lastServed = .relays ∧
    ((holding (entryOf 3 5 (.plain [])) running).relayQueue.find? fun x => !x.onLine) = some (entryOf 3 5 (.plain [])) ∧
    (waitingFor (.relay 3) 5).line.engine ≠ .free ∧ running.orders = [] ∧ running.polls = [] ∧
    (∀ e ∈ running.relayQueue, e.onLine = true) ∧
    (match dispatchCheck running (entryOf 3 5 (.plain [])) with | .ok b => b == .plain [] | _ => false) = true ∧
    (match dispatchCheck running (entryOf 3 9 (.plain [])) with | .error x => x == (.noStation, 9) | _ => false) = true := by
  decide +kernel

theorem test_witness_FieldFrameSent :
    (after (.halt 1) running).line.engine = .sending
      { work := .order .allStop .runc 1, station := 63, fieldTag := 0 }
      { dest := 63, source := 0, kind := 0x3F, tag := 0, flags := 0, payload := [] } ∧
    (after .fieldFrameSent (after (.halt 1) running)).runc.allStop = some .sent := by decide +kernel

/-- HALT, RESUME and HALT again before the first ALL_STOP has gone out: its end leaves the second one PENDING. -/
theorem test_second_allStop_stays_pending :
    let s := after .fieldFrameSent (after (.halt 3) (after (.resume 2) (after (.halt 1) running)))
    s.runc.allStop = some .pending ∧ (after .fieldFrameSent s).runc.allStop = some .sent := by decide +kernel

theorem test_witness_FieldFramesDiscarded :
    let t := { work := Work.relay 3, station := 5, fieldTag := 7 : Transaction }
    (waitingFor (.relay 3) 5).line.engine = .awaiting t 20 ∧ (answerFrom 5 [0]).wf = true ∧
    (answerFrom 60 [0]).source ≠ t.station ∧ ¬ (1 ≤ (answerFrom 61 [0]).source.toNat ∧ (answerFrom 61 [0]).source.toNat ≤ 60) ∧
    (answerFrom 5 []).payload = [] ∧ State.reset.sport.fldRx = .hunt ∧ State.reset.pins.restartAsserted = false ∧
    (after .positionTimerExpiry running).line.engine.driving = true := by decide +kernel

/-- An answer ends the transaction it matches. -/
theorem endsAnswered (s : State) (w : Work) (st : Byte) (p : List Byte)
    (he : s.line.engine = .awaiting { work := w, station := st, fieldTag := 7 } 20)
    (hr : s.pins.restartAsserted = false) (hs : 1 ≤ st.toNat ∧ st.toNat ≤ 60) (hp : p ≠ []) (hl : p.length ≤ 48) :
    Ends s { work := w, station := st, fieldTag := 7 } (.fieldFrameReceived (answerFrom st p) (answerFrom st p).check)
      (some p) :=
  .answered (answerFrom st p) 20 he hr (decide_eq_true hl) rfl hs rfl hp rfl rfl

theorem test_witness_RelayEnds :
    let s := holding (entryOf 3 5 (.plain [1])) (waitingFor (.relay 3) 5)
    let m := holding (entryOf 3 1 (.move (moveOf 2 3 250) .zoneChange true))
      { waitingFor (.relay 3) 1 with
        spouts := { running.spouts with a := { running.spouts.a with state := .moving, target := 2 } } }
    let g := holding (entryOf 3 2 (.gate (gateOf 9) 8 true))
      { waitingFor (.relay 3) 2 with gates := { running.gates with a := { state := .changing 8 (.relay .closed), confirmed := 0 } } }
    Ends s ⟨.relay 3, 5, 7⟩ .replyTimeout none ∧
    Ends s ⟨.relay 3, 5, 7⟩ (.fieldFrameReceived (answerFrom 5 [0]) (answerFrom 5 [0]).check) (some [0]) ∧
    Ends m ⟨.relay 3, 1, 7⟩ .replyTimeout none ∧
    Ends g ⟨.relay 3, 2, 7⟩ (.fieldFrameReceived (answerFrom 2 [2]) (answerFrom 2 [2]).check) (some [2]) ∧
    answeredOk (some [0]) ∧ ¬ answeredOk (some [2]) ∧
    (after .replyTimeout m).spouts.a.state = .settled ∧ ((after .replyTimeout m).zone 2).owner = none ∧
    (after .replyTimeout g).gates.a.state = .rest .closed ∧
    (s.relayQueue.find? fun x => x.tag == 3) = some (entryOf 3 5 (.plain [1])) :=
  ⟨.silent 20 rfl, endsAnswered _ _ _ _ rfl rfl (by decide) (by decide) (by decide), .silent 20 rfl,
    endsAnswered _ _ _ _ rfl rfl (by decide) (by decide) (by decide), ⟨[], rfl⟩, by simp [answeredOk],
    by decide +kernel, by decide +kernel, by decide +kernel, by decide +kernel⟩

theorem test_witness_OrderEnds :
    let s := waitingFor (.order (.gate .a 0) .gate 3) 2
    Ends s ⟨.order (.gate .a 0) .gate 3, 2, 7⟩ .replyTimeout none ∧ (¬ ∃ o ∈ s.orders, o.station = 2) ∧
    (after .replyTimeout s).runc.state = .halt ∧ (after .replyTimeout s).gates.a.state = .rest .unsure ∧
    Ends (waitingFor (.order (.stop .a) .tcu 1) 1) ⟨.order (.stop .a) .tcu 1, 1, 7⟩
      (.fieldFrameReceived (answerFrom 1 [3]) (answerFrom 1 [3]).check) (some [3]) ∧ answeredReject (some [3]) ∧
    (∃ o ∈ (postClose .a s).orders, o.station = 2) ∧
    (after .replyTimeout (waitingFor (.order (.stop .a) .tcu 2) 1)).line.engine.transaction?.map (·.work)
      = some (.order (.stop .a) .tcu 3) :=
  ⟨.silent 20 rfl, by simp [waitingFor, running, loaded, State.reset], by decide +kernel, by decide +kernel,
    endsAnswered _ _ _ _ rfl rfl (by decide) (by decide) (by decide), ⟨[], rfl⟩, by decide +kernel, by decide +kernel⟩

/-- The running state with spout A in this state, its target zone 2 while MOVING, a position poll on the line. -/
def polling (x : SpoutState) (current : ZoneIx) (missed : Nat) : State :=
  { waitingFor (.poll (.position .a)) 1 with
    spouts := { running.spouts with
      a := { SpoutRec.initial with state := x, current, target := if x = .moving then 2 else 0, missed } } }

/-- The state and current zone after a position answer. -/
def heardAt (rail : Word32) (s : State) : SpoutState × Nat :=
  let f := answerFrom 1 (positionPayload ⟨rail, 5, 5, 5⟩ 0)
  ((after (.fieldFrameReceived f f.check) s).spouts.a.state, (after (.fieldFrameReceived f f.check) s).spouts.a.current.val)

theorem test_witness_PositionPollEnds :
    Ends (polling .settled 1 2) ⟨.poll (.position .a), 1, 7⟩ .replyTimeout none ∧
    (after .replyTimeout (polling .settled 1 1)).spouts.a.missed = 2 ∧
    (after .replyTimeout (polling .settled 1 2)).spouts.a.lostCause = some .stale ∧
    heardAt 100 (polling .unknown 0 0) = (.settled, 1) ∧ heardAt 101 (polling .unknown 0 0) = (.lost, 0) ∧
    heardAt 100 (polling .settled 1 0) = (.settled, 1) ∧ heardAt 101 (polling .settled 1 0) = (.lost, 1) ∧
    heardAt 200 (polling .moving 1 0) = (.settled, 2) ∧ heardAt 100 (polling .moving 1 0) = (.moving, 1) ∧
    heardAt 150 (polling .moving 1 0) = (.lost, 1) ∧ heardAt 0 (polling .lost 1 0) = (.settled, 1) ∧
    heardAt 0 (polling .lost 0 0) = (.lost, 0) := ⟨.silent 20 rfl, by decide +kernel⟩

/-- An entry to LOST sends the ORDER_STOP, and the QUEUED MOVE is answered SPOUT_LOST. -/
theorem test_lost_stops_the_drive :
    let s := after .replyTimeout (holding (entryOf 3 1 (.move (moveOf 2 3 250) .zoneChange true)) (polling .moving 1 2))
    s.line.engine.transaction?.map (·.work) = some (.order (.stop .a) .tcu 1) ∧
    lastAnswer s = some (.refusal, 3, [Code.spoutLost.byte, 0, 0x20]) ∧ s.notices.flags[(2 : Fin 13)] = true := by
  decide +kernel

theorem test_witness_DustPollEnds :
    let s := { waitingFor (.poll (.dust 0)) 4 with
      heads := running.heads.set 0 { head0 with missCount := 1 },
      cycle := { state := .cycling, pendingHead := some 0, overrun := false, timer := some 5 } }
    let f := answerFrom 4 [0, 0, 30, 0]
    Ends s ⟨.poll (.dust 0), 4, 7⟩ .replyTimeout none ∧
    ((after .replyTimeout s).heads[(0 : HeadIx)]).state = .silent ∧
    (after .replyTimeout s).notices.subjects[(4 : Fin 13)] = 4 ∧ (after .replyTimeout s).cycle.state = .idle ∧
    ((after (.fieldFrameReceived f f.check) s).heads[(0 : HeadIx)]).riseLevel = .trip ∧
    (let u := after .replyTimeout { s with cycle := { s.cycle with overrun := true } }
     u.cycle = { state := .cycling, pendingHead := some 0, overrun := false, timer := some 1000 } ∧
     (u.heads[(0 : HeadIx)]).sampled = false) := ⟨.silent 20 rfl, by decide +kernel⟩

/-- The running state with this bill, a baseline of 100 at spout A, a scale poll on the line. -/
def weighing (b : Bill) : State :=
  { waitingFor (.poll (.scale .a)) 3 with
    bills := running.bills.set 0 (some b), baselines := { running.baselines with a := { value := 100, valid := true } } }

/-- The state after a totalizer's answer. -/
def weighed (v : Byte) (s : State) : State :=
  let f := answerFrom 3 [0, 0, 0, 2, v, 0]
  after (.fieldFrameReceived f f.check) s

theorem test_witness_ScalePollEnds :
    Ends (weighing (billOf 9 .opened)) ⟨.poll (.scale .a), 3, 7⟩ .replyTimeout none ∧
    ((weighed 88 (weighing (billOf 9 .opened))).bills[(0 : Fin 8)]).map (fun b => (b.holds[(0 : Hold)], b.total))
      = some (500, 500) ∧
    (weighed 89 (weighing (billOf 9 .opened))).notices.flags[(7 : Fin 13)] = true ∧
    (weighed 88 (weighing (billOf 9 .closed))).unbilled = 500 ∧
    (weighed 88 (weighing (billOf 9 .closed))).notices.flags[(8 : Fin 13)] = true ∧
    openSlot (weighing (billOf 9 .opened)) = some 0 ∧ openSlot (weighing (billOf 9 .closed)) = none ∧
    currentHold (weighing (billOf 9 .opened)) .a = some 0 := ⟨.silent 20 rfl, by decide +kernel⟩

theorem test_witness_DeltaCreditsAccountStep :
    let s := { planned [{ stepOf 1 .active with poured := 99 }] with account := { a := some 1, b := none } }
    s.account.get .a = some 1 ∧ (findStep s 1).map (·.kind) = some .plan ∧
    (creditStep .a 1 s).1.plan.map (·.state) = [.done] ∧ (creditStep .a 0 s).1.plan.map (·.state) = [.active] ∧
    (creditStep .a 0xFFFFFFFF s).1.plan.map (·.poured) = [0xFFFFFFFF] := by decide +kernel

/-- Ten units before the target the top-off begins, and the open gate is reduced to the top-off setting. -/
theorem test_delta_starts_the_top_off :
    let r := { stepOf 1 .active with poured := 89, topOffThreshold := 10, topOffSetting := 2 }
    let s := { pouring with plan := [r], account := { a := some 1, b := none } }
    (creditStep .a 1 s).1.plan.map (·.inTopOff) = [true] ∧
    (creditStep .a 1 s).1.orders = [{ station := 2, kind := .gate .a 2, poster := .gate }] ∧
    (creditStep .a 0 s).1.plan.map (·.inTopOff) = [false] ∧ intended s .a = some 8 ∧
    (activeStep s .a).isSome = true ∧ gateWaiting s .a = none := by decide +kernel

theorem test_witness_TimersAndClock :
    State.reset.timers.position = none ∧ running.timers.position ≠ none ∧ State.reset.cycle.timer = none ∧
    running.cycle.timer ≠ none ∧ running.cycle.state = .idle ∧ stationOf running .spoutDrive .a = some 1 ∧
    (after (.sampleNow 1) running).cycle.pendingHead = some 0 ∧
    (after .cycleTimerExpiry (after (.sampleNow 1) running)).notices.flags[(11 : Fin 13)] = true := by decide +kernel

theorem test_witness_PourBlockBegins :
    let s := { planned [stepOf 1 .active] with holdDust := running.holdDust.set 0 .trip }
    blockCause running .a = 0 ∧ blockCause s .a = 1 ∧ blockCause halted .a = 4 ∧
    (activeStep s .a).map (·.number) = some 1 ∧ activeStep halted .a = none ∧
    (evaluateBlock false .a s).plan.map (·.state) = [.held] := by decide +kernel

theorem test_witness_AppendStep :
    Taken (planned [stepOf 1 .done]) ∧ 1 ∈ numbers (planned [stepOf 1 .done]) ∧ 2 ∉ numbers (planned [stepOf 1 .done]) ∧
    (planned [stepOf 1 .done]).stepCounter ∉ numbers (planned [stepOf 1 .done]) ∧ (stepFields 1 1).gateSetting.toNat ≤ 31 ∧
    32 ≤ (planned (List.replicate 32 (stepOf 1 .done))).plan.length :=
  ⟨takenPlanned _, by decide +kernel⟩

theorem test_witness_AppendStep_activation :
    ((planned [stepOf 1 .waiting]).plan.find? (fun _ => true) = some (stepOf 1 .waiting) ∧
      runningStep (planned [stepOf 1 .waiting]) .a = some (stepOf 1 .waiting) ∧ ¬ Filled (stepOf 1 .waiting) ∧
      PourAllowed (planned [stepOf 1 .waiting]) (stepOf 1 .waiting) ∧
      LinkSatisfied (planned [stepOf 1 .waiting]) (stepOf 1 .waiting)) ∧
    Filled { stepOf 1 .waiting with poured := 100 } ∧
    (testSpout .a (planned [stepOf 1 .waiting])).1.plan.map (·.state) = [.active] ∧
    (testSpout .a (planned [stepOf 1 .held])).1.plan.map (·.state) = [.active] ∧
    (testSpout .a (planned [{ stepOf 1 .waiting with poured := 100 }])).1.plan.map (·.state) = [.done] ∧
    (activationTest (planned [{ stepOf 1 .waiting with poured := 100 }, { stepOf 2 .waiting with openBy := .auto }])).orders
      = [{ station := 2, kind := .gate .a 8, poster := .gate }] ∧
    PlanGood (planned [stepOf 1 .waiting]) ∧
    (leaveHold .a (planned [{ stepOf 1 .held with hold := 1 }])).plan.map (·.state) = [.waiting] := by
  refine ⟨⟨by decide +kernel, by decide +kernel, fun h => absurd h.2 (by decide), ?_, fun n q h => by cases h⟩,
    ⟨rfl, by decide⟩, by decide +kernel, by decide +kernel, by decide +kernel, by decide +kernel,
    ⟨by decide, by decide, by decide, by decide⟩, by decide +kernel⟩
  exact ⟨rfl, ⟨rfl, by decide +kernel, by decide +kernel⟩, by decide +kernel, by decide⟩

/-- Step 2, a trim pour of spout A, stands on its stack over step 1. -/
def trimming : State :=
  { planned [{ stepOf 2 .active with kind := .trim }, stepOf 1 .suspended] with
    stack := { running.stack with levels := { a := [{ suspended := 1, trim := 2 }], b := [] } } }

theorem test_witness_CancelAndEndStep :
    (Taken trimming ∧ findStep trimming 2 = some { stepOf 2 .active with kind := .trim } ∧
      trimming.stack.latches = { a := none, b := none } ∧ topEntry trimming .a = some { suspended := 1, trim := 2 }) ∧
    (after (.cancelStep 9 2) trimming).plan.map (·.state) = [.cancelled, .active] ∧
    findStep trimming 1 = some (stepOf 1 .suspended) ∧ findStep (planned [stepOf 1 .held]) 1 = some (stepOf 1 .held) ∧
    findStep (planned [stepOf 1 .done]) 1 = some (stepOf 1 .done) ∧ 3 ∉ numbers trimming :=
  ⟨⟨⟨rfl, rfl, by decide⟩, by decide +kernel, by decide +kernel, by decide +kernel⟩, by decide +kernel⟩

/-- The trimming state with a latch of spout A set. -/
def latched : State :=
  { trimming with
    stack := { trimming.stack with
      latches := { a := some { hold := 0, target := 5, gateSetting := 3, openBy := .supervisor }, b := none }
      older := some .a } }

theorem test_witness_CancelAndEndStep_stack :
    (latched.stack.levels.get .a).length ≤ 3 ∧ (latched.stack.latches.get .a).isSome = true ∧ latched.plan.length < 32 ∧
    (runningStep latched .a).map (·.number) = some 2 ∧ latched.stack.shared = .empty ∧
    (after (.endStep 9 2) trimming).plan.map (·.state) = [.done, .active] ∧
    (after (.endStep 9 2) trimming).notices.subjects[(9 : Fin 13)] = 2 ∧
    (after (.endStep 9 2) trimming).stack.levels.a = [] ∧
    (after (.endStep 9 2) latched).notices.subjects[(10 : Fin 13)] = 50 ∧
    (after (.endStep 9 2) latched).plan.map (fun r => (r.number, r.state)) = [(2, .done), (50, .active), (1, .suspended)] ∧
    (after (.endStep 9 2) { trimming with
      plan := [{ stepOf 2 .active with kind := .trim }, { stepOf 1 .suspended with poured := 100 }] }).plan.map (·.state)
        = [.done, .done] ∧
    (serveShared { latched with stack := { latched.stack with levels := { a := [], b := [] } } }).stack.levels.a.length = 1 := by
  decide +kernel

theorem test_witness_PurgeAndReadStep :
    let s := { planned [stepOf 1 .done, { stepOf 2 .suspended with after := some 1 }] with account := { a := some 1, b := none } }
    (after (.purgeSteps 9) s).plan.map (·.after) = [none] ∧ (after (.purgeSteps 9) s).account.a = none ∧
    (findStep s 2).isSome = true ∧ 3 ∉ numbers s := by decide +kernel

theorem test_witness_ReadPlan : Taken (planned [stepOf 1 .done]) ∧ ¬ 31 < (31 : Byte).toNat ∧ 31 < (32 : Byte).toNat :=
  ⟨takenPlanned _, by decide⟩

/-- Spout A's stack is full and the cursor holds the shared level. -/
def stacked : State :=
  { planned [stepOf 1 .waiting] with
    stack := { running.stack with
      levels := { a := List.replicate 3 { suspended := 7, trim := 8 }, b := [] }, shared := .cursor 9 0 } }

theorem test_witness_TrimPour :
    (Taken stacked ∧ PlanGood stacked) ∧ (runningStep stacked .a).map (·.number) = some 1 ∧
    3 ≤ (stacked.stack.levels.get .a).length ∧ stacked.stack.shared ≠ .empty ∧ stacked.stack.latches.get .a = none ∧
    lastAnswer (after (.trimPour 1 (trimFields 31)) stacked) = some (.reply, 1, [1]) ∧
    lastAnswer (after (.trimPour 2 (trimFields 31)) (after (.trimPour 1 (trimFields 31)) stacked)) = some (.reply, 2, [0x55]) ∧
    lastAnswer (after (.trimPour 1 (trimFields 32)) stacked) = some (.reply, 1, [0x25]) ∧
    runningStep running .a = none ∧
    (runningStep (planned [stepOf 1 .waiting]) .a).isSome = true :=
  ⟨⟨⟨rfl, rfl, by decide⟩, ⟨by decide, by decide, by decide, by decide⟩⟩, by decide +kernel⟩

/-- All slots hold ISSUED bills, slot 3 the earliest closed. -/
def issuedTable : State :=
  { running with
    bills := Vector.ofFn fun i : Fin 8 =>
      some { billOf (BitVec.ofNat 16 (i.val + 1)) .issued with closedAt := if i = 3 then 4 else 5 } }

theorem test_witness_OpenCloseAndUnbilled :
    lastAnswer (after (.openBill 1 9) issuedTable) = some (.reply, 1, [0, 3]) ∧
    lastAnswer (after (.openBill 1 8) issuedTable) = some (.reply, 1, [0x61]) ∧
    openSlot (billed (billOf 9 .opened)) = some 0 ∧ openSlot running = none ∧
    (running.gates.get .a).state = .rest .closed ∧ fitted running .b = false ∧
    (after (.closeBill 1) (reading (billOf 9 .opened) 12)).stack.shared = .cursor 9 0 ∧
    (Taken issuedTable ∧ ∀ i : Fin 8, issuedTable.bills[i] ≠ none) :=
  ⟨by decide +kernel, by decide +kernel, by decide +kernel, by decide +kernel, by decide +kernel, by decide +kernel,
    by decide +kernel, ⟨rfl, rfl, by decide⟩, by decide +kernel⟩

/-- One bill of nothing is a good table. -/
theorem billsGood_one (b : Bill) (s : State) (hs : s.bills = running.bills.set 0 (some b)) (h : b.total = b.sum)
    (hn : b.number ≠ 0) (hc : b.state = .opened → b.closedAt = 0) : BillsGood s := by
  have key : ∀ (i : Fin 8) (c : Bill), s.bills[i] = some c → i = 0 ∧ c = b := by
    intro i c hi
    have h0 : (running.bills.set 0 (some b))[i] = some c := by rw [← hs]; exact hi
    by_cases e : i = 0
    · subst e; exact ⟨rfl, (Option.some.inj h0).symm⟩
    · exfalso
      have : ∀ j : Fin 8, j ≠ 0 → (running.bills.set 0 (some b))[j] = none := by
        intro j hj
        match j, hj with
        | ⟨k + 1, hk⟩, _ =>
          show (running.bills.set 0 (some b))[k + 1] = none
          rw [Vector.getElem_set_ne _ _ (by omega)]
          exact Vector.getElem_replicate _
      rw [this i e] at h0; cases h0
  constructor
  · intro i c hi; rw [(key i c hi).2]; exact h
  · intro i c hi; rw [(key i c hi).2]; exact hn
  · intro i c hi; rw [(key i c hi).2]; exact hc
  · intro i j c d hi hj _; rw [(key i c hi).1, (key j d hj).1]
  · intro i j c d hi hj _ _; rw [(key i c hi).1, (key j d hj).1]

theorem test_witness_BillReadout :
    (Taken (reading (billOf 9 .closed) 13) ∧ BillsGood (reading (billOf 9 .closed) 13)) ∧
    (reading (billOf 9 .closed) 13).stack.shared = .cursor 9 13 ∧
    (reading (billOf 9 .closed) 13).bills[(0 : Fin 8)] = some (billOf 9 .closed) ∧
    lastAnswer (after (.readBillNext 1) (reading (billOf 9 .closed) 12)) = some (.reply, 1, [0, 12, 0, 0, 0, 0]) ∧
    lastAnswer (after (.readBillNext 1) (reading (billOf 9 .opened) 13)) = some (.reply, 1, [2]) ∧
    lastAnswer (after (.readBillOpen 1 9) (reading (billOf 9 .closed) 0)) = some (.reply, 1, [0x64]) ∧
    (reading (billOf 9 .closed) 13).stack.older = none ∧
    lastAnswer (after (.readBillEnd 1) running) = some (.reply, 1, [0x65]) :=
  ⟨⟨takenReading _ _, billsGood_one _ _ rfl (by decide) (by decide) (fun h => by cases h)⟩, by decide +kernel⟩

theorem test_witness_IssueBill :
    (Taken (billed { billOf 9 .closed with readThrough := true }) ∧
      BillsGood (billed { billOf 9 .closed with readThrough := true })) ∧
    ((after (.issueBill 1 9) (billed { billOf 9 .closed with readThrough := true })).bills[(0 : Fin 8)]).map (·.state)
      = some .issued :=
  ⟨⟨takenBilled _, billsGood_one _ _ rfl (by decide) (by decide) (fun h => by cases h)⟩, by decide +kernel⟩

theorem test_witness_NoticeRequests :
    let s := after .supervisorFrameLengthDiscard State.reset
    s.notices.flags[(12 : Fin 13)] = true ∧ s.notices.mask[(12 : Fin 13)] = false ∧
    (∀ k : Fin 13, k < 12 → s.notices.flags[k] = true → s.notices.mask[k] = true) ∧
    (0x4000 : Word16).getLsbD 14 = true ∧ noticeSetOk 0x3FFE = true ∧
    (∀ n : Fin 13, State.reset.notices.flags[n] = true → State.reset.notices.mask[n] = true) := by decide +kernel

theorem test_witness_FlagsAndClosedBillsStay :
    clearsNotices .replyTimeout = false ∧ (billOf 9 .closed).state ≠ .opened ∧
    (after .supervisorFrameLengthDiscard State.reset).notices.flags[(12 : Fin 13)] = true := by decide +kernel

theorem test_witness_properties_kept :
    (match step State.reset with | .next t => t.clock.ticks == 1 | _ => false) = true ∧ KeyRule State.reset ∧
    PlanGood State.reset ∧ QueuesGood State.reset :=
  ⟨by decide +kernel, fun h => absurd h (by decide), ⟨by decide, by decide, by decide, by decide⟩, ⟨by decide, by decide⟩⟩

end Sys2Proof.Tests
end

section
/-! The frame of a request, read back and carried out (R2, R8, R9, R191). -/

namespace Sys2Proof.Machine

/-! ## The check word (R2) -/

/-- A data bit that equals the bit shifted out only shifts the register. -/
theorem crcBit_msb (r : Word16) : crcBit r r.msb = r <<< 1 := by
  unfold crcBit; simp

/-- Bit `15 - k` of a word is the top bit once the word has shifted `k` times. -/
theorem msb_shiftLeft (w : Word16) (k : Nat) (hk : k ≤ 15) : (w <<< k).msb = w.getLsbD (15 - k) := by
  rw [BitVec.msb_eq_getLsbD_last, BitVec.getLsbD_shiftLeft]
  simp; omega

theorem crcBit_shifted (w : Word16) (k : Nat) (hk : k ≤ 15) :
    crcBit (w <<< k) (w.getLsbD (15 - k)) = w <<< (k + 1) := by
  rw [← msb_shiftLeft w k hk, crcBit_msb, BitVec.shiftLeft_add]

/-- Eight bits of a word, fed back when they have come to the top of the register, only shift it. -/
theorem crcByte_shifted (w : Word16) (b : Byte) (k : Nat) (hk : k ≤ 8)
    (hb : ∀ i, i < 8 → b.getLsbD i = w.getLsbD (i + (8 - k))) : crcByte (w <<< k) b = w <<< (k + 8) := by
  have bit : ∀ i j, i + j = 7 → crcBit (w <<< (k + j)) (b.getLsbD i) = w <<< (k + (j + 1)) := by
    intro i j h
    rw [hb i (by omega), show i + (8 - k) = 15 - (k + j) by omega, crcBit_shifted w (k + j) (by omega)]
    rfl
  show crcBit (crcBit (crcBit (crcBit (crcBit (crcBit (crcBit (crcBit (w <<< (k + 0)) _) _) _) _) _) _) _) _ = _
  rw [bit 7 0 rfl, bit 6 1 rfl, bit 5 2 rfl, bit 4 3 rfl, bit 3 4 rfl, bit 2 5 rfl, bit 1 6 rfl, bit 0 7 rfl]

/-- A word fed back into a register that holds it leaves 0. -/
theorem crc_of_own_bytes (w : Word16) : (bytes16 w).foldl crcByte w = 0 := by
  have high := crcByte_shifted w (w.extractLsb' 8 8) 0 (by omega) fun i hi => by
    rw [BitVec.getLsbD_extractLsb', decide_eq_true hi, Bool.true_and, Nat.add_comm]
  have low := crcByte_shifted w (w.extractLsb' 0 8) 8 (by omega) fun i hi => by
    rw [BitVec.getLsbD_extractLsb', decide_eq_true hi, Bool.true_and, Nat.zero_add]
    rfl
  rw [BitVec.shiftLeft_zero] at high
  rw [bytes16, List.foldl_cons, List.foldl_cons, List.foldl_nil, high, low, BitVec.shiftLeft_eq_zero (Nat.le_refl 16)]
  rfl

/-- Settles O4: the check word, fed back behind its frame, shifts the register out to 0. -/
theorem checkWordClosesTheCrc : Obligations.CheckWordClosesTheCrc := by
  unfold Obligations.CheckWordClosesTheCrc
  have bit : ∀ (w : Word16) (b : Bool),
      crcBit w b = if w.getLsbD 15 = b then w <<< 1 else (w <<< 1) ^^^ 0x1021 := by
    intro w b
    rw [crcBit, BitVec.msb_eq_getLsbD_last]
    cases w.getLsbD 15 <;> cases b <;> rfl
  refine ⟨rfl, fun l b => ?_, fun _ => rfl, fun f => ?_⟩
  · rw [crc16, List.foldl_append, List.foldl_cons, List.foldl_nil, crcByte, List.foldl_map]
    simp only [bit]
    rfl
  · rw [crc16, List.foldl_append]
    exact crc_of_own_bytes f.check

/-! ## The frame of a request (R9, R191) -/

/-- A management frame of source 62 to station 0 is the request its payload carries. -/
theorem routeFrame_mgmt {t code : Byte} {fields : List Byte} {c : Instr} (h : readRequest t code fields = some c) :
    routeFrame (supFrame 0 kindMgmt t (code :: fields)) = .command c := by
  simp [routeFrame, routePayload, supFrame, h]

/-- A relay frame of source 62 to a field station is routed by its payload alone. -/
theorem routeFrame_relay {d k t : Byte} {p : List Byte} (hd : fieldAddress d = true)
    (hk : k = kindMove ∨ k = kindGate ∨ k = kindPlain) :
    routeFrame (supFrame d k t p) = routePayload (supFrame d k t p) := by
  have hne : k ≠ kindMgmt := by rcases hk with rfl | rfl | rfl <;> decide
  unfold fieldAddress at hd
  simp only [Bool.and_eq_true, decide_eq_true_eq] at hd
  have hd0 : d ≠ 0 := by rintro rfl; simp at hd
  have hd1 : ¬ 61 ≤ d.toNat := by omega
  have hd2 : ¬ ((k = kindMgmt ∧ d ≠ 0) ∨ (k ≠ kindMgmt ∧ d = 0)) := 
    fun h => h.elim (fun h => hne h.1) fun h => hd0 h.2
  unfold routeFrame supFrame
  rw [if_neg (by simp), if_neg (by simp [hk]), if_neg hd1, if_neg hd2]

/-- Settles O5, request by request: the layouts of R194 to R199 written and read again. -/
theorem requestFramesAreRead : Obligations.RequestFramesAreRead := by
  unfold Obligations.RequestFramesAreRead
  intro c f hwf hf
  cases c with
  | move t d m =>
    cases hf
    rw [routeFrame_relay hwf (.inl rfl)]
    show (match readMove m.bytes with | some m => Route.command (.move t d m) | none => _) = _
    rw [readMove_bytes]
  | gate t d g =>
    cases hf
    rw [routeFrame_relay hwf (.inr (.inl rfl))]
    show (match readGate g.bytes with | some g => Route.command (.gate t d g) | none => _) = _
    rw [readGate_bytes]
  | plain t d data =>
    cases hf
    have hd : (fieldAddress d && decide (data.length ≤ Config.maxPayload)) = true := hwf
    rw [routeFrame_relay (Bool.and_eq_true_iff.mp hd).1 (.inr (.inr rfl))]
    rfl
  | setClock t m | setTiming t a b c d | setLimits t n c d | setFreeboard t h o | appendStep t x | cancelStep t n
  | endStep t n | readStep t n | trimPour t x | openBill t n | readBillOpen t n | issueBill t n | clearNotices t n
  | setNoticeMask t n =>
    cases hf
    refine routeFrame_mgmt ?_
    simp [readRequest, readSetClock, readSetTiming, readSetLimits, readSetFreeboard, readAppendStep, readTrimPour,
      oneWord, StepFields.bytes, TrimFields.bytes, bytes16, bytes32, word16_bytes, word32_bytes]
  | loadStation t a p k u c | loadZone t z | loadHead t h =>
    cases hf
    refine routeFrame_mgmt ?_
    simp [readRequest, readLoadStation, readLoadZone, readLoadHead, ZoneFields.bytes, HeadFields.bytes, bytes16,
      bytes32, word16_bytes, word32_bytes]
  | getStatus | run | halt | resume | restart | setConsoleLevel | setZoneLimit | readStation | readZone | queryZone
  | readHead | sampleNow | ackTrip | purgeSteps | readPlan | closeBill | readBillNext | readBillEnd | clearUnbilled
  | nextNotice => cases hf; exact routeFrame_mgmt rfl
  | _ => cases hf

/-- A request's own command is the arrival of its frame: received, then carried out (log 2). -/
theorem exec_request {c : Instr} {f : Frame} (s : State) (hwf : c.wf = true) (hf : frameOf c = some f) :
    exec c s = .next (receive (carriedOut c) s) := by
  cases c with
  | plain t d data =>
    have hd : (fieldAddress d && decide (data.length ≤ Config.maxPayload)) = true := hwf
    show Host.Outcome.next (if data.length ≤ Config.maxPayload then _ else _) = _
    rw [if_pos (of_decide_eq_true (Bool.and_eq_true_iff.mp hd).2)]
    rfl
  | powerOn | restartInput | restartInputRelease | maintenanceKeyInactive | maintenanceKeyActive | supervisorFrame
  | supervisorFrameLengthDiscard | supervisorFrameTimeLimit | upstreamFrameStart | upstreamFrameSent
  | fieldFrameReceived | fieldFrameLengthDiscard | fieldFrameTimeLimit | fieldFrameSent | replyTimeout
  | positionTimerExpiry | scaleTimerExpiry | cycleTimerExpiry | clockMinute | startByteReceived
  | fieldCheckWordMismatch => cases hf
  | _ => rfl

/-- The frame of a well-formed request has at most 48 payload bytes. -/
theorem frameOf_wf {c : Instr} {f : Frame} (hwf : c.wf = true) (hf : frameOf c = some f) : f.wf = true := by
  have h : f.payload.length ≤ Config.maxPayload := by
    cases c with
    | powerOn | restartInput | restartInputRelease | maintenanceKeyInactive | maintenanceKeyActive | supervisorFrame
    | supervisorFrameLengthDiscard | supervisorFrameTimeLimit | upstreamFrameStart | upstreamFrameSent
    | fieldFrameReceived | fieldFrameLengthDiscard | fieldFrameTimeLimit | fieldFrameSent | replyTimeout
    | positionTimerExpiry | scaleTimerExpiry | cycleTimerExpiry | clockMinute | startByteReceived
    | fieldCheckWordMismatch => cases hf
    | plain t d data => exact (Laws.FrameCarries.plain t d data f hf).2.2 hwf
    | _ => cases hf; exact Nat.le_of_ble_eq_true rfl
  simpa [Frame.wf] using h

/-- A good supervisor frame within 48 payload bytes is received and taken. -/
theorem exec_supervisorFrame_good {f : Frame} (s : State) (hf : f.wf = true) :
    exec (.supervisorFrame f f.check) s = .next (receive (takeFrame f) s) := by
  show Host.Outcome.next (if ¬ f.wf then _ else if f.check = f.check then _ else _) = _
  rw [if_neg (by simp [hf]), if_pos rfl]

/-- Settles O6: the frame of a request is read as that request (O5) and both are received alike. -/
theorem frameActsAsItsRequest : Obligations.FrameActsAsItsRequest := by
  unfold Obligations.FrameActsAsItsRequest
  intro c f s hwf hf
  have taken : takeFrame f = carriedOut c := by
    funext u
    rw [takeFrame, requestFramesAreRead c f hwf hf]
  rw [exec_supervisorFrame_good s (frameOf_wf hwf hf), taken, exec_request s hwf hf]

end Sys2Proof.Machine
end

section
/-! The supervisor receiver and the upstream line (R3 to R5, R8 to R15, R183). -/

namespace Sys2Proof.Machine

/-! ## Receiving (R3, R4, R11, R15, R183) -/

section
variable {s : State}

/-- The receiver's branches, read from the state before the frame. -/
theorem receive_eq (taken : State → State) (s : State) : receive taken s =
    if s.pins.restartAsserted then s
    else if s.sport.restartPending then heard s
    else if 16 ≤ s.placesUsed then setNotice .linkFault 4 (heard s)
    else taken (heard s) := rfl

theorem receiveDamaged_eq (s : State) : receiveDamaged s =
    if s.pins.restartAsserted then s
    else if s.sport.restartPending then heard s else setNotice .linkFault 1 (heard s) := rfl

/-- A frame that is taken is carried out on the state that has heard it. -/
theorem receive_taken (h : Taken s) (taken : State → State) : receive taken s = taken (heard s) := by
  rw [receive_eq, if_neg (by simp [h.released]), if_neg (by simp [h.noRestart]), 
    if_neg (show ¬ 16 ≤ s.placesUsed from Nat.not_le.mpr h.place)]

theorem discard_released (h : s.pins.restartAsserted = false) (n : Word16) :
    discard n s = setNotice .linkFault n (heard s) := by
  rw [discard, if_neg (by simp [h])]
  rfl

/-- A frame with a wrong check word is a damaged one. -/
theorem exec_supervisorFrame_damaged {f : Frame} {w : Word16} (hf : f.wf = true) (hw : w ≠ f.check) :
    exec (.supervisorFrame f w) s = .next (receiveDamaged s) := by
  show Host.Outcome.next (if ¬ f.wf then _ else if w = f.check then _ else _) = _
  rw [if_neg (by simp [hf]), if_neg hw]

end

/-- Settles O9: each cause is one branch of the receiver. -/
theorem linkFaultCauses : Obligations.LinkFaultCauses := by
  unfold Obligations.LinkFaultCauses
  intro f w s hf
  refine ⟨fun h hr hw => ?_, fun h => ?_, fun n h hn => ?_, fun h hr hp hw => ?_, fun h hr => ?_, fun h => ?_⟩
  · rw [exec_supervisorFrame_damaged hf hw, receiveDamaged_eq, if_neg (by simp [h]), if_neg (by simp [hr])]
  · exact congrArg _ (discard_released h 2)
  · show Host.Outcome.next (match s.sport.supRx with | .hunt => s | .frame _ => discard 3 s) = _
    rw [hn]
    exact congrArg _ (discard_released h 3)
  · subst hw
    rw [exec_supervisorFrame_good s hf, receive_eq, if_neg (by simp [h]), if_neg (by simp [hr]), if_pos hp]
  · by_cases hw : w = f.check
    · subst hw
      rw [exec_supervisorFrame_good s hf, receive_eq, if_neg (by simp [h]), if_pos hr]
    · rw [exec_supervisorFrame_damaged hf hw, receiveDamaged_eq, if_neg (by simp [h]), if_pos hr]
  · by_cases hw : w = f.check
    · subst hw
      rw [exec_supervisorFrame_good s hf, receive_eq, if_pos h]
    · rw [exec_supervisorFrame_damaged hf hw, receiveDamaged_eq, if_pos h]

/-! ## The checks of R8 -/

/-- A taken frame that R8 refuses is answered by its REFUSAL alone. -/
theorem exec_refused {f : Frame} {s : State} {reason : Code} {subject : Byte} (hf : f.wf = true) (h : Taken s)
    (hr : routeFrame f = .refuse reason subject) :
    exec (.supervisorFrame f f.check) s = .next (refusalTo f.tag reason subject f.kind s) := by
  rw [exec_supervisorFrame_good s hf, receive_taken h, takeFrame, hr]
  rfl

theorem supervisorKind_iff (k : Byte) :
    supervisorKind k = true ↔ k = kindMgmt ∨ k = kindMove ∨ k = kindGate ∨ k = kindPlain := by
  simp [supervisorKind, kindMgmt, kindMove, kindGate, kindPlain, or_assoc]

theorem spoutOfByte_isSome (b : Byte) : (spoutOfByte b).isSome = decide (b.toNat ≤ 1) := by
  revert b; decide

theorem levelOfByte_isSome (b : Byte) : (levelOfByte b).isSome = decide (b.toNat ≤ 3) := by
  revert b; decide

theorem settingOfByte_isSome (b : Byte) : (settingOfByte b).isSome = decide (b.toNat ≤ 31) := by
  revert b; decide

/-- A MOVE payload is read exactly where it fits. -/
theorem readMove_isSome (p : List Byte) :
    (readMove p).isSome = (p.length == 14 && decide (byteAt p 0 ≤ 1) && decide (byteAt p 3 ≤ 3)) := by
  unfold readMove
  split
  · rename_i sp tg rt lv _ _ _ _ _ _ _ _ _ _
    show _ = (true && decide (sp.toNat ≤ 1) && decide (lv.toNat ≤ 3))
    rw [← spoutOfByte_isSome, ← levelOfByte_isSome]
    cases spoutOfByte sp <;> cases levelOfByte lv <;> rfl
  · rename_i h
    have hl : p.length ≠ 14 := by
      intro hl
      match p, hl with
      | [a, b, c, d, e, f, g, i, j, k, l, m, n, o], _ => exact h _ _ _ _ _ _ _ _ _ _ _ _ _ _ rfl
    simp [hl]

/-- A GATE payload is read exactly where it fits. -/
theorem readGate_isSome (p : List Byte) : (readGate p).isSome
    = (p.length == 3 && decide (byteAt p 0 ≤ 1) && decide (byteAt p 1 ≤ 3) && decide (byteAt p 2 ≤ 31)) := by
  unfold readGate
  split
  · rename_i sp lv st
    show _ = (true && decide (sp.toNat ≤ 1) && decide (lv.toNat ≤ 3) && decide (st.toNat ≤ 31))
    rw [← spoutOfByte_isSome, ← levelOfByte_isSome, ← settingOfByte_isSome]
    cases spoutOfByte sp <;> cases levelOfByte lv <;> cases settingOfByte st <;> rfl
  · rename_i h
    have hl : p.length ≠ 3 := by
      intro hl
      match p, hl with
      | [a, b, c], _ => exact h _ _ _ rfl
    simp [hl]

/-- Check 5 of R8 refuses a payload exactly where it does not fit its kind. -/
theorem routePayload_fits (f : Frame) :
    (payloadFits f = false → routePayload f = .refuse .badFrame 3) ∧
    (payloadFits f = true → ∀ reason subject, routePayload f ≠ .refuse reason subject) := by
  unfold payloadFits routePayload
  simp only [show (0x10 : Byte) = kindMgmt from rfl, show (0x20 : Byte) = kindMove from rfl,
    show (0x21 : Byte) = kindGate from rfl]
  split
  · cases f.payload with
    | nil => exact ⟨fun _ => rfl, fun h => by simp at h⟩
    | cons code fields =>
      refine ⟨fun h => by simp at h, fun _ reason subject => ?_⟩
      dsimp only
      split <;> simp
  · split
    · rw [← readMove_isSome]
      cases readMove f.payload <;> simp
    · split
      · rw [← readGate_isSome]
        cases readGate f.payload <;> simp
      · simp

/-- Settles O7: the checks of R8 are the branches of `routeFrame`, in order. -/
theorem frameChecksOfR8 : Obligations.FrameChecksOfR8 := by
  unfold Obligations.FrameChecksOfR8
  have kinds : ∀ f : Frame, supervisorKind f.kind = true →
      ¬ ¬ (f.kind = kindMgmt ∨ f.kind = kindMove ∨ f.kind = kindGate ∨ f.kind = kindPlain) :=
    fun f hk h => h ((supervisorKind_iff _).mp hk)
  have suited : ∀ f : Frame, f.source = 62 → supervisorKind f.kind = true → destinationSuits f = true →
      routeFrame f = routePayload f := by
    intro f hs hk hd
    unfold destinationSuits at hd
    rw [Bool.and_eq_true, decide_eq_true_eq] at hd
    rw [routeFrame, if_neg (not_not.mpr hs), if_neg (kinds f hk), if_neg (by omega), if_neg]
    show ¬ ((f.kind = 0x10 ∧ f.dest ≠ 0) ∨ (f.kind ≠ 0x10 ∧ f.dest = 0))
    have := hd.2
    split at this <;> simp_all
  refine ⟨fun f s hf h => ⟨fun hs => ?_, fun hs hk => ?_, fun hs hk hd => ?_, fun hs hk hd hp => ?_,
    fun hs hk hd hp => ?_⟩, fun f x => ?_⟩
  · exact exec_refused hf h (by rw [routeFrame, if_pos hs])
  · refine exec_refused hf h ?_
    rw [routeFrame, if_neg (not_not.mpr hs), if_pos fun e => ?_]
    rw [(supervisorKind_iff _).mpr e] at hk
    cases hk
  · refine exec_refused hf h ?_
    rw [routeFrame, if_neg (not_not.mpr hs), if_neg (kinds f hk)]
    by_cases hl : 61 ≤ f.dest.toNat
    · rw [if_pos hl]
    · rw [if_neg hl, if_pos]
      show (f.kind = 0x10 ∧ f.dest ≠ 0) ∨ (f.kind ≠ 0x10 ∧ f.dest = 0)
      unfold destinationSuits at hd
      rw [decide_eq_true (Nat.lt_of_not_le hl), Bool.true_and] at hd
      split at hd <;> simp_all
  · exact exec_refused hf h ((suited f hs hk hd).trans ((routePayload_fits f).1 hp))
  · rw [suited f hs hk hd]
    exact (routePayload_fits f).2 hp
  · rfl

/-! ## The upstream line (R5, R10, R13, R15) -/

theorem attention_iff (s : State) :
    s.attention = true ↔ ∃ i : Fin 13, s.notices.flags[i] = true ∧ s.notices.mask[i] = false := by
  simp [State.attention, attentionOf]

/-- The header flags, bit by bit: N, T, H, C, and 0 above them. -/
theorem flagsByte_bits (n t h c : Bool) :
    (flagsByte n t h c).getLsbD 0 = n ∧ (flagsByte n t h c).getLsbD 1 = t ∧ (flagsByte n t h c).getLsbD 2 = h ∧
      (flagsByte n t h c).getLsbD 3 = c ∧ ∀ i, 4 ≤ i → (flagsByte n t h c).getLsbD i = false := by
  have low : (flagsByte n t h c).toNat < 2 ^ 4 := by revert n t h c; decide
  refine ⟨by revert n t h c; decide, by revert n t h c; decide, by revert n t h c; decide,
    by revert n t h c; decide, fun i hi => ?_⟩
  exact Nat.testBit_lt_two_pow (Nat.lt_of_lt_of_le low (Nat.pow_le_pow_right (by decide) hi))

/-- Settles O10: the frame is the first answer's, its flags those of `flagsByte` in the state it starts in. -/
theorem upstreamFrameStartsWithItsFlags : Obligations.UpstreamFrameStartsWithItsFlags := by
  unfold Obligations.UpstreamFrameStartsWithItsFlags
  intro s a rest hr hs ha
  obtain ⟨hn, ht, hh, hc, hi⟩ :=
    flagsByte_bits s.attention a.trimmed (s.runc.state == .halt) (s.runc.state == .config)
  refine ⟨answerFrame s a, ?_, rfl, rfl, rfl, rfl, ?_, ?_, ?_, ?_, ht, ?_, ?_, hi⟩
  · show Host.Outcome.next (startUpstream s) = _
    rw [startUpstream, if_neg (by simp [hr, hs]), ha]
  · intro h; show a.kind.byte = _; rw [h]; rfl
  · intro h; show a.kind.byte = _; rw [h]; rfl
  · intro h; show a.kind.byte = _; rw [h]; rfl
  · rw [← attention_iff]; exact hn ▸ Iff.rfl
  · show (flagsByte _ _ _ _).getLsbD 2 = true ↔ _
    rw [hh, beq_iff_eq]
  · show (flagsByte _ _ _ _).getLsbD 3 = true ↔ _
    rw [hc, beq_iff_eq]

theorem endUpstream_sent {s : State} {f : Frame} {a : Answer} {rest : List Answer} (hs : s.sport.sending = some f)
    (ha : s.sport.ready = a :: rest) :
    endUpstream s = if a.isRestart then restartAll s
      else s.withSport { s.sport with ready := rest, sending := none } := by
  rw [endUpstream, hs, ha]
  rfl

/-- Settles O11: the end of a frame, and RESTART's REPLY placed first behind a frame that is being sent. -/
theorem upstreamSentAndRestartReply : Obligations.UpstreamSentAndRestartReply := by
  unfold Obligations.UpstreamSentAndRestartReply
  have taken : ∀ (tag : Byte) (s : State), Taken s → exec (.restart tag) s = .next (takeRestart tag (heard s)) :=
    fun tag s h => congrArg _ (receive_taken h (takeRestart tag))
  refine ⟨fun s f a rest hs ha => ⟨fun h => ?_, fun h => ?_⟩, fun tag s h => ⟨fun hs => ?_, fun f a rest hs ha => ?_⟩⟩
  · show Host.Outcome.next (endUpstream s) = _
    rw [endUpstream_sent hs ha, if_neg (by simp [h])]
  · show Host.Outcome.next (endUpstream s) = _
    rw [endUpstream_sent hs ha, if_pos h]
  · have hs : (heard s).sport.sending = none := hs
    rw [taken tag s h, takeRestart, hs]
    show Host.Outcome.next ((heard s).withSport { (heard s).sport with
      ready := placeFirst _ false s.sport.ready, restartPending := true }) = _
    cases s.sport.ready <;> rfl
  · have hs : (heard s).sport.sending = some f := hs
    have ha : (heard s).sport.ready = a :: rest := ha
    rw [taken tag s h, takeRestart, hs, ha]
    rfl

/-! ## The restart (R15, R183) -/

theorem mapTable_getElem {α β : Type} {n : Nat} (f : α → β) (v : Vector α n) (i : Fin n) : (mapTable f v)[i] = f v[i] := by
  simp [mapTable]

theorem restartInput_released {s : State} (h : s.pins.restartAsserted = false) :
    exec .restartInput s = .next ((restartAll s).withPins { s.pins with restartAsserted := true }) := by
  show Host.Outcome.next (if s.pins.restartAsserted then s else _) = _
  rw [if_neg (by simp [h])]

/-- Settles O12: the restart values are those `restartAll` writes; tables are read entry by entry. -/
theorem restartInputRestartsEveryBlock : Obligations.RestartInputRestartsEveryBlock := by
  unfold Obligations.RestartInputRestartsEveryBlock
  intro s
  have zones : ∀ i : ZoneIx, (restartAll s).zones.entries[i] = { s.zones.entries[i] with owner := none } := by
    intro i
    simp only [restartAll, restartZones, mapTable_getElem]
  have heads : ∀ i : HeadIx, (restartAll s).heads[i] = restartHead s.heads[i] := by
    simp only [restartAll, mapTable_getElem, implies_true]
  refine ⟨fun h => ?_, rfl, fun h => ⟨_, restartInput_released h, ?_⟩⟩
  · show Host.Outcome.next (if s.pins.restartAsserted then s else _) = _
    rw [if_pos h]
  · simp only [State.withPins_fields, State.zone]
    refine ⟨trivial, rfl, rfl, rfl, rfl, rfl, rfl, rfl, rfl, rfl, by simp [restartAll], fun sp => ?_, rfl, rfl, rfl,
      by simp [restartAll, restartNotices], rfl, rfl, rfl, rfl, by simp only [restartAll, restartZones], zones, rfl,
      heads, rfl, rfl, rfl⟩
    cases sp <;> exact ⟨rfl, rfl, rfl, rfl, rfl⟩

end Sys2Proof.Machine
end

section
/-! The output places, the relay queue, the order queue and the poll set through a step (R11, R12, R21, R26, R37). -/

namespace Sys2Proof.Machine

/-! ## Work that takes no output place -/

/-- The four lists that `PlacesGood` and `QueuesGood` read are the same. -/
structure SameLists (s t : State) : Prop where
  reserved   : t.sport.reserved = s.sport.reserved
  ready      : t.sport.ready = s.sport.ready
  sending    : t.sport.sending = s.sport.sending
  pending    : t.sport.restartPending = s.sport.restartPending
  relayQueue : t.relayQueue = s.relayQueue
  orders     : t.orders = s.orders
  polls      : t.polls = s.polls

/-- Work that keeps both forms, takes or frees no output place and lets no relay entry join. -/
structure FormWork (s t : State) : Prop where
  places : PlacesGood s → PlacesStep s t
  queues : QueuesGood s → QueuesGood t

theorem BlockWork.formWork {s t : State} (h : BlockWork s t) : FormWork s t := ⟨h.places, h.queuesGood⟩

theorem FormWork.trans {s t u : State} (h : FormWork s t) (k : FormWork t u) : FormWork s u :=
  ⟨fun g => (h.places g).trans (k.places (h.places g).good), fun g => k.queues (h.queues g)⟩

theorem SameLists.placesGood {s t : State} (h : SameLists s t) (g : PlacesGood s) : PlacesGood t := by
  refine ⟨?_, ?_, ?_, ?_, ?_⟩
  · rw [h.reserved, h.relayQueue]; exact g.reserved
  · rw [h.relayQueue]; exact g.tags
  · rw [h.relayQueue]; exact g.entries
  · unfold State.placesUsed; rw [h.reserved, h.ready]; exact g.places
  · rw [h.sending, h.ready]; exact g.sending

theorem SameLists.formWork {s t : State} (h : SameLists s t) : FormWork s t := by
  refine ⟨fun g => ⟨h.placesGood g, ?_, ?_, h.pending⟩, fun g => ⟨?_, ?_⟩⟩
  · unfold State.placesUsed; rw [h.reserved, h.ready]
  · unfold tags; rw [h.relayQueue]
  · rw [h.orders]; exact g.orders
  · rw [h.polls]; exact g.polls

theorem formWork_refl (s : State) : FormWork s s := (BlockWork.refl s).formWork

/-! ## The requests' own work -/

theorem Reply.ok_state (data : List Byte) (s : State) : (Reply.ok data s).state = s := rfl

section
variable (s : State)

theorem startTimers_formWork : FormWork s (startTimers s) := by
  refine FormWork.trans (t := s.withTimers _) (SameLists.formWork ?_)
    ((positionPolls_work _).trans (scalePolls_work _)).formWork
  constructor <;> rfl

theorem enterRun_formWork : FormWork s (enterRun s) := by
  have taken : FormWork s (invalidateBaselines (takeSettings (s.withRunc { s.runc with state := .run }))) :=
    SameLists.formWork (by constructor <;> rfl)
  have closed : ∀ u, FormWork u ((fittedSpouts u).foldl (fun t sp => postClose sp t) u) :=
    fun u => (BlockWork.foldl (fun t sp => postGate_work t sp 0) (fittedSpouts u) u).formWork
  exact taken.trans ((closed _).trans ((startTimers_formWork _).trans
    ((startCycle_work _).trans (activationTest_work _)).formWork))

theorem leaveHalt_formWork : FormWork s (leaveHalt s) := by
  refine FormWork.trans
    (t := invalidateBaselines (takeSettings (s.withRunc { s.runc with state := .run, haltCause := none })))
    (SameLists.formWork (by constructor <;> rfl)) ?_
  exact (startTimers_formWork _).trans (activationTest_work _).formWork

theorem runRequest_formWork : FormWork s (runRequest s).state := by
  unfold runRequest
  split
  · exact formWork_refl s
  · exact formWork_refl s
  · split
    · exact formWork_refl s
    · split
      · exact formWork_refl s
      · rw [Reply.ok_state]
        exact enterRun_formWork s

theorem haltRequest_formWork : FormWork s (haltRequest s).state := by
  unfold haltRequest
  split
  · rw [Reply.ok_state]
    exact (haltEntry_work s .request).formWork
  · exact formWork_refl s
  · exact formWork_refl s

theorem resumeRequest_formWork : FormWork s (resumeRequest s).state := by
  unfold resumeRequest
  split
  · exact formWork_refl s
  · exact formWork_refl s
  · split
    · exact formWork_refl s
    · rw [Reply.ok_state]
      exact leaveHalt_formWork s

theorem setConsoleLevel_formWork (l : Byte) : FormWork s (setConsoleLevel l s).state := by
  unfold setConsoleLevel
  split
  · exact formWork_refl s
  · split
    · exact formWork_refl s
    · exact SameLists.formWork (by constructor <;> rfl)

/-- A configuration request writes, if at all, by its write. -/
theorem inConfig_formWork {w : Option (State → State)} (h : ∀ g, w = some g → FormWork s (g s)) :
    FormWork s (inConfig (writeIf w) s).state := by
  unfold inConfig
  split
  · cases w with
    | none => exact formWork_refl s
    | some g => exact h g rfl
  · exact formWork_refl s

theorem loadStation_formWork (a : Byte) (p : Bool) (k u c : Byte) : FormWork s (loadStation a p k u c s).state := by
  refine inConfig_formWork s fun g hg => ?_
  unfold writeStation at hg
  split at hg
  · cases hg; exact SameLists.formWork (by constructor <;> rfl)
  · cases hg

theorem loadZone_formWork (z : ZoneFields) : FormWork s (loadZone z s).state := by
  refine inConfig_formWork s fun g hg => ?_
  unfold writeZone at hg
  split at hg
  · split at hg
    · cases hg
    · cases hg; exact SameLists.formWork (by constructor <;> rfl)
  · cases hg

theorem setZoneLimit_formWork (l : Byte) : FormWork s (setZoneLimit l s).state := by
  refine inConfig_formWork s fun g hg => ?_
  unfold writeLimit at hg
  split at hg
  · cases hg; exact SameLists.formWork (by constructor <;> rfl)
  · cases hg

theorem loadHead_formWork (h : HeadFields) : FormWork s (loadHead h s).state := by
  refine inConfig_formWork s fun g hg => ?_
  unfold writeHead at hg
  split at hg
  · cases hg; exact SameLists.formWork (by constructor <;> rfl)
  · cases hg

theorem setTiming_formWork (a b c d : Word16) : FormWork s (setTiming a b c d s).state := by
  refine inConfig_formWork s fun g hg => ?_
  unfold writeTiming at hg
  split at hg
  · cases hg; exact SameLists.formWork (by constructor <;> rfl)
  · cases hg

theorem setLimits_formWork (n c : Byte) (d : Word16) : FormWork s (setLimits n c d s).state := by
  refine inConfig_formWork s fun g hg => ?_
  unfold writeLimits at hg
  split at hg
  · split at hg
    · cases hg; exact SameLists.formWork (by constructor <;> rfl)
    · cases hg
  · cases hg

theorem readStation_state (a : Byte) : (readStation a s).state = s := by unfold readStation; split <;> rfl
theorem readZone_state (i : Byte) : (readZone i s).state = s := by unfold readZone; split <;> rfl
theorem queryZone_state (i l : Byte) : (queryZone i l s).state = s := by unfold queryZone; split <;> rfl
theorem readHead_state (i : Byte) : (readHead i s).state = s := by unfold readHead; split <;> rfl
theorem readStep_state (n : Word16) : (readStep n s).state = s := by unfold readStep; split <;> rfl

theorem readPlan_state (i : Byte) : (readPlan i s).state = s := by
  unfold readPlan
  split
  · rfl
  · split <;> rfl

theorem writeFreeboard_formWork (x : Hold) (o : Word16) : FormWork s (writeFreeboard x o s) := by
  have written : FormWork s (s.withFreeboard (s.freeboard.set x.val o)) := SameLists.formWork (by constructor <;> rfl)
  have tested : ∀ u, BlockWork u (bothSpouts.foldl (fun u sp => if settledOver u sp x then testOverreach sp u else u) u) := by
    refine fun u => BlockWork.foldl (fun u sp => ?_) _ u
    split
    · exact testOverreach_work u sp
    · exact .refl u
  exact written.trans ((tested _).trans (tcuKnown_work _ _)).formWork

theorem setFreeboard_formWork (h : Byte) (o : Word16) : FormWork s (setFreeboard h o s).state := by
  unfold setFreeboard
  split
  · rename_i x _
    split
    · rw [Reply.ok_state]
      exact writeFreeboard_formWork s x o
    · exact formWork_refl s
  · exact formWork_refl s

theorem sampleNow_work : BlockWork s (sampleNow s).state := by
  unfold sampleNow
  split
  · exact .refl s
  · split
    · rw [Reply.ok_state]
      exact startCycle_work s
    · exact .refl s

theorem ackTrip_work (i : Byte) : BlockWork s (ackTrip i s).state := by
  unfold ackTrip
  split
  · exact .refl s
  · dsimp only
    split
    · exact .refl s
    · split
      · exact .refl s
      · split
        · exact changeHead_work s _ _
        · exact .refl s

theorem appendStep_work (f : StepFields) : BlockWork s (appendStep f s).state := by
  unfold appendStep
  split
  · exact .refl s
  · rename_i mk hmk
    split
    · exact .refl s
    · split
      · exact .refl s
      · rename_i hl
        refine (BlockWork.join (Nat.lt_of_not_le hl) (fun n => ?_) fun x l => List.perm_append_singleton x l).trans
          (activationTest_work _)
        unfold stepOfFields at hmk
        split at hmk
        · rw [Option.map_eq_some_iff] at hmk
          obtain ⟨_, _, rfl⟩ := hmk
          rfl
        · cases hmk

theorem cancelStep_work (n : Word16) : BlockWork s (cancelStep n s).state := by
  unfold cancelStep
  split
  · exact .refl s
  · rename_i r _
    split
    · exact .refl s
    · split
      · exact .refl s
      · rw [Reply.ok_state]
        unfold cancelRecord
        refine (setStepState_work s r.number .cancelled).trans ?_
        split
        · exact (closeUnlessClosed_work _ _).trans ((afterEnd_work _ _).trans (activationTest_work _))
        · exact (afterEnd_work _ _).trans (activationTest_work _)

theorem endStep_work (n : Word16) : BlockWork s (endStep n s).state := by
  unfold endStep
  split
  · exact .refl s
  · split
    · exact (enterDone_work s _).trans (activationTest_work _)
    · exact .refl s

theorem purgeSteps_formWork : FormWork s (purgeSteps s).state :=
  FormWork.trans (t := purge s) (SameLists.formWork (by constructor <;> rfl)) (activationTest_work _).formWork

theorem trimPour_work (f : TrimFields) : BlockWork s (trimPour f s).state := by
  unfold trimPour
  split
  · exact .refl s
  · unfold trimChecked
    split
    · exact .refl s
    · rename_i hl
      have room : s.plan.length < Config.planRecords := Nat.lt_of_not_le hl
      split
      · exact (createTrimAtTail_work s _ _ room).trans (activationTest_work _)
      · split
        · exact (pushRunning_work s _ _ _ room).trans (activationTest_work _)
        · split
          · exact setLatch_work s _ _
          · exact .refl s

theorem openBill_formWork (n : Word16) : FormWork s (openBill n s).state := by
  unfold openBill
  split
  · exact formWork_refl s
  · split
    · exact formWork_refl s
    · split
      · exact formWork_refl s
      · split
        · exact formWork_refl s
        · exact SameLists.formWork (by constructor <;> rfl)

theorem rewindCursor_work (n : Word16) : BlockWork s (rewindCursor n s) := by
  unfold rewindCursor
  split
  · exact withStack_work s _
  · exact .refl s

theorem closeBill_formWork : FormWork s (closeBill s).state := by
  unfold closeBill
  split
  · exact formWork_refl s
  · rename_i i b _
    split
    · exact formWork_refl s
    · exact FormWork.trans (t := setBill i (closedBill b s.clock.minutes) s) (SameLists.formWork (by constructor <;> rfl))
        (rewindCursor_work _ _).formWork

theorem readBillOpen_work (n : Word16) : BlockWork s (readBillOpen n s).state := by
  unfold readBillOpen
  split
  · exact .refl s
  · split
    · exact withStack_work s _
    · exact .refl s

theorem readBillNext_formWork : FormWork s (readBillNext s).state := by
  unfold readBillNext
  split
  · split
    · exact formWork_refl s
    · split
      · exact (withStack_work s _).formWork
      · show FormWork s (markRead _ _ s)
        unfold markRead
        split
        · exact SameLists.formWork (by constructor <;> rfl)
        · exact formWork_refl s
  · exact formWork_refl s

theorem readBillEnd_work : BlockWork s (readBillEnd s).state := by
  unfold readBillEnd
  split
  · exact (withStack_work s _).trans ((serveShared_work _).trans (activationTest_work _))
  · exact .refl s

theorem issueBill_formWork (n : Word16) : FormWork s (issueBill n s).state := by
  unfold issueBill
  split
  · exact formWork_refl s
  · split
    · exact SameLists.formWork (by constructor <;> rfl)
    · exact formWork_refl s

theorem nextNotice_formWork : FormWork s (nextNotice s).state := by
  unfold nextNotice
  split
  · exact SameLists.formWork (by constructor <;> rfl)
  · exact formWork_refl s

theorem clearNotices_formWork (n : Word16) : FormWork s (clearNotices n s).state := by
  unfold clearNotices
  split
  · exact SameLists.formWork (by constructor <;> rfl)
  · exact formWork_refl s

theorem setNoticeMask_formWork (n : Word16) : FormWork s (setNoticeMask n s).state := by
  unfold setNoticeMask
  split
  · exact SameLists.formWork (by constructor <;> rfl)
  · exact formWork_refl s

end

/-! ## What an event keeps -/

/-- Both forms are kept. -/
structure KeepsForms (s t : State) : Prop where
  places : PlacesGood s → PlacesGood t
  queues : QueuesGood s → QueuesGood t

theorem FormWork.keeps {s t : State} (h : FormWork s t) : KeepsForms s t := ⟨fun g => (h.places g).good, h.queues⟩

theorem KeepsForms.trans {s t u : State} (h : KeepsForms s t) (k : KeepsForms t u) : KeepsForms s u :=
  ⟨fun g => k.places (h.places g), fun g => k.queues (h.queues g)⟩

theorem SameLists.keeps {s t : State} (h : SameLists s t) : KeepsForms s t := h.formWork.keeps

/-- SPORT's state changes, the queues stay: what is left to show is the places' form. -/
theorem withSport_keeps {s : State} {x : Sport} (h : PlacesGood s → PlacesGood (s.withSport x)) :
    KeepsForms s (s.withSport x) := ⟨h, fun g => ⟨g.orders, g.polls⟩⟩

/-- An answer joins the send order where a place is free. -/
theorem pushReady_keeps {s : State} (a : Answer) (h : PlacesGood s → s.placesUsed < Config.outputPlaces) :
    KeepsForms s (pushReady a s) := by
  refine withSport_keeps fun g => ⟨g.reserved, g.tags, g.entries, ?_, fun _ => ?_⟩
  · have := h g
    unfold State.placesUsed at this ⊢
    simp only [State.withSport_fields, List.length_append, List.length_singleton]
    omega
  · simp

/-- A taken frame finds a free place, and what is done with it keeps both forms. -/
theorem receive_keeps {taken : State → State} (s : State)
    (h : ∀ u, u.placesUsed < Config.outputPlaces → KeepsForms u (taken u)) : KeepsForms s (receive taken s) := by
  have heardKeeps : KeepsForms s (heard s) := SameLists.keeps (by constructor <;> rfl)
  rw [receive_eq]
  split
  · exact (formWork_refl s).keeps
  · split
    · exact heardKeeps
    · split
      · exact heardKeeps.trans (BlockWork.notice _ _ _).formWork.keeps
      · rename_i hp
        exact heardKeeps.trans (h _ (Nat.lt_of_not_le hp))

section
variable {u : State} (hu : u.placesUsed < Config.outputPlaces)
include hu

/-- The REPLY goes into the place its frame holds, which the request's own work leaves free. -/
theorem replied_keeps {tag : Byte} {op : State → Reply} (h : FormWork u (op u).state) : KeepsForms u (replied tag op u) := by
  refine ⟨fun g => ?_, fun g => ?_⟩
  · exact (pushReady_keeps _ fun _ => by rw [(h.places g).used]; exact hu).places (h.places g).good
  · exact ⟨(h.queues g).orders, (h.queues g).polls⟩

theorem repliedActs_keeps {tag : Byte} {op : State → Reply} (h : FormWork u (op u).state) :
    KeepsForms u (repliedActs tag op u) := (replied_keeps hu h).trans (arbitrate_work _).formWork.keeps

theorem takeRestart_keeps (tag : Byte) : KeepsForms u (takeRestart tag u) := by
  have len : ∀ (a : Answer) (b : Bool) (l : List Answer), (placeFirst a b l).length = l.length + 1 := by
    intro a b l; cases l <;> cases b <;> rfl
  refine withSport_keeps fun g => ⟨g.reserved, g.tags, g.entries, ?_, fun _ h => ?_⟩
  · unfold State.placesUsed at hu ⊢
    simp only [State.withSport_fields, len]
    omega
  · have := congrArg List.length h
    simp [len] at this

/-- An entry joins the relay queue with its place reserved, where there is room for both and its tag is not in use. -/
theorem appendEntry_places (tag dest : Byte) (body : RelayBody) (g : PlacesGood u)
    (hl : u.relayQueue.length < Config.relayPlaces) (ht : tag ∉ tags u) : PlacesGood (appendEntry tag dest body u) := by
  refine ⟨?_, ?_, ?_, ?_, g.sending⟩
  · simp only [appendEntry, State.withSport_fields, State.withRelayQueue_fields, List.map_append, List.map_cons, List.map_nil]
    exact g.reserved.append_right _
  · simp only [appendEntry, State.withSport_fields, State.withRelayQueue_fields, List.map_append, List.map_cons, List.map_nil]
    exact List.nodup_append.mpr ⟨g.tags, List.nodup_singleton _, fun a ha b hb e => ht (by
      rw [List.mem_singleton] at hb; rw [← hb, ← e]; exact ha)⟩
  · simp only [appendEntry, State.withSport_fields, State.withRelayQueue_fields, List.length_append, List.length_singleton]
    omega
  · unfold State.placesUsed at hu ⊢
    simp only [appendEntry, State.withSport_fields, List.length_append, List.length_singleton]
    omega

/-- A frame that passed the arrival checks joins the queue after work that lets nothing else join. -/
theorem arrived_keeps {t : State} {tag dest : Byte} {ask : RelayAsk} (body : RelayBody) (h : arrivalCheck u tag dest ask = none)
    (w : FormWork u t) : KeepsForms u (appendEntry tag dest body t) := by
  unfold arrivalCheck at h
  split at h
  · cases h
  · rename_i hl
    split at h
    · cases h
    · rename_i ht
      refine ⟨fun g => ?_, fun g => ⟨(w.queues g).orders, (w.queues g).polls⟩⟩
      have st := w.places g
      have len : t.relayQueue.length ≤ u.relayQueue.length := by
        have := st.tags.length_le
        unfold tags at this
        rwa [List.length_map, List.length_map] at this
      refine appendEntry_places (by rw [st.used]; exact hu) tag dest body st.good
        (Nat.lt_of_le_of_lt len (Nat.lt_of_not_le hl)) fun hm => ht ?_
      obtain ⟨e, he, rfl⟩ := List.mem_map.mp (st.tags.subset hm)
      exact List.any_eq_true.mpr ⟨e, he, by simp⟩

theorem moveArrival_keeps (tag dest : Byte) (m : MoveFields) : KeepsForms u (moveArrival tag dest m u) := by
  unfold moveArrival
  split
  · exact pushReady_keeps _ fun _ => hu
  · rename_i h
    split
    · exact pushReady_keeps _ fun _ => hu
    · exact arrived_keeps hu _ h (acceptMove_work u _ _ _).formWork

theorem gateArrival_keeps (tag dest : Byte) (x : GateFields) : KeepsForms u (gateArrival tag dest x u) := by
  unfold gateArrival
  split
  · exact pushReady_keeps _ fun _ => hu
  · rename_i h
    split
    · exact arrived_keeps hu _ h (formWork_refl u)
    · split
      · exact pushReady_keeps _ fun _ => hu
      · exact arrived_keeps hu _ h (formWork_refl u)

theorem plainArrival_keeps (tag dest : Byte) (data : List Byte) : KeepsForms u (plainArrival tag dest data u) := by
  unfold plainArrival
  split
  · exact pushReady_keeps _ fun _ => hu
  · rename_i h
    exact arrived_keeps hu _ h (formWork_refl u)

theorem relayTaken_keeps {tag dest kind : Byte} {arrival : State → State} (h : KeepsForms u (arrival u)) :
    KeepsForms u (relayTaken tag dest kind arrival u) := by
  unfold relayTaken
  split
  · exact h.trans (arbitrate_work _).formWork.keeps
  · exact pushReady_keeps _ fun _ => hu

/-- Whatever request a taken frame carries, both forms are kept. -/
theorem carriedOut_keeps (c : Instr) : KeepsForms u (carriedOut c u) := by
  cases c with
  | move t d m => exact relayTaken_keeps hu (moveArrival_keeps hu t d m)
  | gate t d x => exact relayTaken_keeps hu (gateArrival_keeps hu t d x)
  | plain t d data => exact relayTaken_keeps hu (plainArrival_keeps hu t d data)
  | getStatus t => exact replied_keeps hu (formWork_refl u)
  | run t => exact repliedActs_keeps hu (runRequest_formWork u)
  | halt t => exact repliedActs_keeps hu (haltRequest_formWork u)
  | resume t => exact repliedActs_keeps hu (resumeRequest_formWork u)
  | restart t => exact takeRestart_keeps hu t
  | setConsoleLevel t l => exact replied_keeps hu (setConsoleLevel_formWork u l)
  | setClock t m => exact replied_keeps hu (SameLists.formWork (by constructor <;> rfl))
  | loadStation t a p k n c => exact replied_keeps hu (loadStation_formWork u a p k n c)
  | loadZone t z => exact replied_keeps hu (loadZone_formWork u z)
  | setZoneLimit t l => exact replied_keeps hu (setZoneLimit_formWork u l)
  | loadHead t h => exact replied_keeps hu (loadHead_formWork u h)
  | setTiming t a b c d => exact replied_keeps hu (setTiming_formWork u a b c d)
  | setLimits t n c d => exact replied_keeps hu (setLimits_formWork u n c d)
  | readStation t a => exact replied_keeps hu (by rw [readStation_state]; exact formWork_refl u)
  | readZone t i => exact replied_keeps hu (by rw [readZone_state]; exact formWork_refl u)
  | queryZone t i l => exact replied_keeps hu (by rw [queryZone_state]; exact formWork_refl u)
  | readHead t i => exact replied_keeps hu (by rw [readHead_state]; exact formWork_refl u)
  | setFreeboard t h o => exact repliedActs_keeps hu (setFreeboard_formWork u h o)
  | sampleNow t => exact repliedActs_keeps hu (sampleNow_work u).formWork
  | ackTrip t i => exact repliedActs_keeps hu (ackTrip_work u i).formWork
  | appendStep t f => exact repliedActs_keeps hu (appendStep_work u f).formWork
  | cancelStep t n => exact repliedActs_keeps hu (cancelStep_work u n).formWork
  | endStep t n => exact repliedActs_keeps hu (endStep_work u n).formWork
  | purgeSteps t => exact repliedActs_keeps hu (purgeSteps_formWork u)
  | readStep t n => exact replied_keeps hu (by rw [readStep_state]; exact formWork_refl u)
  | readPlan t i => exact replied_keeps hu (by rw [readPlan_state]; exact formWork_refl u)
  | trimPour t f => exact repliedActs_keeps hu (trimPour_work u f).formWork
  | openBill t n => exact replied_keeps hu (openBill_formWork u n)
  | closeBill t => exact replied_keeps hu (closeBill_formWork u)
  | readBillOpen t n => exact replied_keeps hu (readBillOpen_work u n).formWork
  | readBillNext t => exact replied_keeps hu (readBillNext_formWork u)
  | readBillEnd t => exact repliedActs_keeps hu (readBillEnd_work u).formWork
  | issueBill t n => exact replied_keeps hu (issueBill_formWork u n)
  | clearUnbilled t => exact replied_keeps hu (SameLists.formWork (by constructor <;> rfl))
  | nextNotice t => exact replied_keeps hu (nextNotice_formWork u)
  | clearNotices t n => exact replied_keeps hu (clearNotices_formWork u n)
  | setNoticeMask t n => exact replied_keeps hu (setNoticeMask_formWork u n)
  | _ => exact (formWork_refl u).keeps

/-- Whatever a taken frame is, both forms are kept. -/
theorem takeFrame_keeps (f : Frame) : KeepsForms u (takeFrame f u) := by
  unfold takeFrame
  split
  · exact pushReady_keeps _ fun _ => hu
  · exact pushReady_keeps _ fun _ => hu
  · exact carriedOut_keeps hu _

end

/-! ## Events that are no request -/

section
variable (s : State)

theorem discard_keeps (n : Word16) : KeepsForms s (discard n s) := by
  unfold discard
  split
  · exact (formWork_refl s).keeps
  · exact SameLists.keeps (by constructor <;> rfl)

theorem receiveDamaged_keeps : KeepsForms s (receiveDamaged s) := by
  rw [receiveDamaged_eq]
  split
  · exact (formWork_refl s).keeps
  · split <;> exact SameLists.keeps (by constructor <;> rfl)

theorem setFldRx_keeps (r : Receiver) : KeepsForms s (setFldRx r s) := SameLists.keeps (by constructor <;> rfl)

theorem dropField_keeps : KeepsForms s (dropField s) := by
  unfold dropField
  split
  · exact (formWork_refl s).keeps
  · exact setFldRx_keeps s _

theorem takeField_keeps (f : Frame) : KeepsForms s (takeField f s) := by
  unfold takeField
  split
  · exact (formWork_refl s).keeps
  · dsimp only
    split
    · exact (setFldRx_keeps s _).trans (matchAnswer_work _ f).formWork.keeps
    · exact setFldRx_keeps s _

theorem startUpstream_keeps : KeepsForms s (startUpstream s) := by
  unfold startUpstream
  split
  · exact (formWork_refl s).keeps
  · split
    · rename_i a rest ha
      exact withSport_keeps fun g => ⟨g.reserved, g.tags, g.entries, g.places, fun _ => by simp [ha]⟩
    · exact (formWork_refl s).keeps

/-- A part whose places are all free and whose four lists are empty has both forms. -/
theorem keeps_of_fresh {t : State} (hs : t.sport = Sport.initial) (hr : t.relayQueue = []) (ho : t.orders = [])
    (hp : t.polls = []) : KeepsForms s t := by
  refine ⟨fun _ => ⟨?_, ?_, ?_, ?_, ?_⟩, fun _ => ⟨?_, ?_⟩⟩
  · rw [hs, hr]; exact List.Perm.nil
  · rw [hr]; exact List.nodup_nil
  · rw [hr]; exact Nat.zero_le _
  · unfold State.placesUsed; rw [hs]; exact Nat.zero_le _
  · rw [hs]; intro h; cases h
  · rw [ho]; exact List.nodup_nil
  · rw [hp]; exact List.nodup_nil

theorem endUpstream_keeps : KeepsForms s (endUpstream s) := by
  unfold endUpstream
  split
  · rename_i a rest _ ha
    dsimp only
    split
    · exact keeps_of_fresh s rfl rfl rfl rfl
    · refine withSport_keeps fun g => ⟨g.reserved, g.tags, g.entries, ?_, fun h => by cases h⟩
      have := g.places
      unfold State.placesUsed at this ⊢
      simp only [State.withSport_fields, ha, List.length_cons] at this ⊢
      omega
  · exact (formWork_refl s).keeps

/-- A timer's reload, then what falls due. -/
theorem reloaded_keeps {t u : State} (h : SameLists s t) (w : BlockWork t u) : KeepsForms s u :=
  h.keeps.trans w.formWork.keeps

end

/-- Every command keeps both forms. -/
theorem exec_keeps {c : Instr} {s t : State} (h : exec c s = .next t) : KeepsForms s t := by
  have request : ∀ d : Instr, KeepsForms s (receive (carriedOut d) s) :=
    fun d => receive_keeps s fun u hu => carriedOut_keeps hu d
  cases c with
  | powerOn => cases h; exact keeps_of_fresh s rfl rfl rfl rfl
  | restartInput =>
    cases h
    split
    · exact (formWork_refl s).keeps
    · exact keeps_of_fresh s rfl rfl rfl rfl
  | restartInputRelease | maintenanceKeyInactive | maintenanceKeyActive | clockMinute =>
    cases h; exact SameLists.keeps (by constructor <;> rfl)
  | supervisorFrame f w =>
    cases h
    split
    · exact discard_keeps s 2
    · split
      · exact receive_keeps s fun u hu => takeFrame_keeps hu f
      · exact receiveDamaged_keeps s
  | supervisorFrameLengthDiscard => cases h; exact discard_keeps s 2
  | supervisorFrameTimeLimit =>
    cases h
    split
    · exact (formWork_refl s).keeps
    · exact discard_keeps s 3
  | upstreamFrameStart => cases h; exact startUpstream_keeps s
  | upstreamFrameSent => cases h; exact endUpstream_keeps s
  | plain tag dest data =>
    cases h
    split
    · exact request (.plain tag dest data)
    · exact discard_keeps s 2
  | fieldFrameReceived f w =>
    cases h
    split
    · exact takeField_keeps s f
    · exact dropField_keeps s
  | fieldFrameLengthDiscard | fieldCheckWordMismatch => cases h; exact dropField_keeps s
  | fieldFrameTimeLimit => cases h; exact setFldRx_keeps s _
  | fieldFrameSent => cases h; exact (fieldFrameEnd_work s).formWork.keeps
  | replyTimeout => cases h; exact (replyTimerEnd_work s).formWork.keeps
  | positionTimerExpiry =>
    cases h
    split
    · exact (formWork_refl s).keeps
    · exact reloaded_keeps s (t := s.withTimers _) (by constructor <;> rfl) ((positionPolls_work _).trans (arbitrate_work _))
  | scaleTimerExpiry =>
    cases h
    split
    · exact (formWork_refl s).keeps
    · exact reloaded_keeps s (t := s.withTimers _) (by constructor <;> rfl) ((scalePolls_work _).trans (arbitrate_work _))
  | cycleTimerExpiry =>
    cases h
    split
    · exact (formWork_refl s).keeps
    · exact ((cycleExpiry_work s).trans (arbitrate_work _)).formWork.keeps
  | startByteReceived line =>
    cases h
    cases line with
    | supervisor =>
      dsimp only
      split
      · exact (formWork_refl s).keeps
      · exact SameLists.keeps (by constructor <;> rfl)
    | field =>
      dsimp only
      split
      · exact (formWork_refl s).keeps
      · exact setFldRx_keeps s _
  | move a b m => cases h; exact request (.move a b m)
  | gate a b g => cases h; exact request (.gate a b g)
  | _ => rw [exec_request s rfl rfl] at h; cases h; exact request _

/-- The tick moves clocks and timers alone. -/
theorem tick_keeps (s : State) : KeepsForms s (tick s) := SameLists.keeps (by constructor <;> rfl)

theorem idle_keeps {s t : State} (h : idle s = .next t) : KeepsForms s t := by
  unfold idle at h
  split at h
  · cases h; exact tick_keeps s
  · exact exec_keeps h
  · unfold chooseDue at h
    exact (SameLists.keeps (t := s.withFreeCount (s.freeCount + 1)) (by constructor <;> rfl)).trans (exec_keeps h)

/-- Settles O59: every command keeps both forms, and so do the tick and the queue's own step. -/
theorem placesAndQueuesKept : Obligations.PlacesAndQueuesKept := by
  unfold Obligations.PlacesAndQueuesKept
  intro s t h
  have keeps : KeepsForms s t := by
    unfold step at h
    split at h
    · rename_i c rest _
      exact (SameLists.keeps (t := s.withPending rest) (by constructor <;> rfl)).trans (exec_keeps h)
    · exact idle_keeps h
  exact ⟨keeps.places, keeps.queues⟩

/-! ## After power-on -/

theorem placesQueues_reset : PlacesGood State.reset ∧ QueuesGood State.reset :=
  ⟨⟨List.Perm.nil, List.nodup_nil, Nat.zero_le _, Nat.zero_le _, fun h => by cases h⟩, ⟨List.nodup_nil, List.nodup_nil⟩⟩

theorem settingsDefault_good : Settings.default.Good := by
  constructor <;> decide

theorem stationInitial_good : Station.initial.Good := by
  constructor <;> decide

theorem zoneInitial_good : Zone.initial.Good := by
  constructor <;> decide

theorem headInitial_good : Head.initial.Good := by
  refine ⟨?_, ?_, ?_, ?_, ?_, ?_, fun h => absurd rfl h⟩ <;> decide

theorem tablesGood_reset : TablesGood State.reset := by
  have zone : ∀ i : ZoneIx, State.reset.zone i = Zone.initial := by simp [State.zone, State.reset]
  have stations : ∀ i : Fin 60, State.reset.stations[i] = Station.initial := by simp [State.reset]
  have freeboard : ∀ h : Hold, offsetOf State.reset h = 0 := by simp [offsetOf, State.reset]
  refine ⟨?_, by decide, fun h => ?_, settingsDefault_good, settingsDefault_good, fun i => ?_, fun i => ?_⟩
  · rw [zone]; rfl
  · rw [freeboard]; decide
  · rw [zone]; exact zoneInitial_good
  · rw [stations]; exact stationInitial_good

theorem headsGood_reset : HeadsGood State.reset := by
  have heads : ∀ i : HeadIx, State.reset.heads[i] = Head.initial := by simp [State.reset]
  intro i
  rw [heads]
  exact headInitial_good

theorem billsGood_reset : BillsGood State.reset := by
  have slots : ∀ i : Fin 8, State.reset.bills[i] = none := by simp [State.reset]
  have empty : ∀ (i : Fin 8) (b : Bill), State.reset.bills[i] ≠ some b := fun i b h => by rw [slots] at h; cases h
  exact ⟨fun i b h => absurd h (empty i b), fun i b h => absurd h (empty i b), fun i b h => absurd h (empty i b),
    fun i _ b _ h => absurd h (empty i b), fun i _ b _ h => absurd h (empty i b)⟩

/-- Settles O57: every table holds its power-on entry, every list is empty. -/
theorem propertiesHoldAtReset : Obligations.PropertiesHoldAtReset :=
  ⟨fun h => absurd h (by decide), tablesGood_reset, headsGood_reset, placesQueues_reset.1, placesQueues_reset.2,
    ⟨Nat.zero_le _, List.nodup_nil, fun r hr => absurd hr (List.not_mem_nil), by decide⟩, billsGood_reset⟩

end Sys2Proof.Machine
end

section
/-! The empty queue (R3, R18, R27, R88, R161, R184) and the frames the field line discards (R3, R4, R14, R19). -/

namespace Sys2Proof.Machine

/-! ## The empty queue -/

theorem receiver_overdue (r : Receiver) : r.overdue = true ↔ ∃ n, r = .frame n ∧ 10 ≤ n := by
  cases r with
  | hunt => exact ⟨fun h => absurd h Bool.false_ne_true, fun ⟨_, h, _⟩ => (by cases h)⟩
  | frame c => exact ⟨fun h => ⟨c, rfl, of_decide_eq_true h⟩, fun ⟨_, h, hn⟩ => (by cases h; exact decide_eq_true hn)⟩

theorem engine_overdue (e : Engine) : e.overdue = true ↔ ∃ t, e = .awaiting t 0 := by
  cases e with
  | awaiting t n => cases n <;> simp [Engine.overdue]
  | _ => simp [Engine.overdue]

/-- The list of due timers names exactly the expiries that are due. -/
theorem mem_dueTimers (s : State) (c : Instr) : c ∈ dueTimers s ↔ Due s c := by
  have listed : c ∈ dueTimers s ↔ (true, c) ∈ expiries s := by
    unfold dueTimers
    rw [List.mem_filterMap]
    refine ⟨?_, fun h => ⟨_, h, rfl⟩⟩
    rintro ⟨⟨b, d⟩, h, e⟩
    cases b
    · cases e
    · cases e; exact h
  rw [listed]
  simp only [expiries, List.mem_cons, List.not_mem_nil, or_false, Prod.mk.injEq, eq_comm (a := true), receiver_overdue,
    engine_overdue, beq_iff_eq]
  constructor
  · rintro (⟨⟨n, h, hn⟩, rfl⟩ | ⟨⟨n, h, hn⟩, rfl⟩ | ⟨⟨t, h⟩, rfl⟩ | ⟨h, rfl⟩ | ⟨h, rfl⟩ | ⟨h, rfl⟩ | ⟨h, rfl⟩)
    · exact .supervisorFrame n h hn
    · exact .fieldFrame n h hn
    · exact .reply t h
    · exact .position h
    · exact .scale h
    · exact .cycle h
    · exact .minute (of_decide_eq_true h)
  · rintro (⟨n, h, hn⟩ | ⟨n, h, hn⟩ | ⟨t, h⟩ | h | h | h | h)
    · exact .inl ⟨⟨n, h, hn⟩, rfl⟩
    · exact .inr (.inl ⟨⟨n, h, hn⟩, rfl⟩)
    · exact .inr (.inr (.inl ⟨⟨t, h⟩, rfl⟩))
    · exact .inr (.inr (.inr (.inl ⟨h, rfl⟩)))
    · exact .inr (.inr (.inr (.inr (.inl ⟨h, rfl⟩))))
    · exact .inr (.inr (.inr (.inr (.inr (.inl ⟨h, rfl⟩)))))
    · exact .inr (.inr (.inr (.inr (.inr (.inr ⟨decide_eq_true h, rfl⟩)))))

theorem dueTimers_nodup (s : State) : (dueTimers s).Nodup := by
  have sub : ∀ l : List (Bool × Instr), (l.filterMap fun x => if x.1 then some x.2 else none).Sublist (l.map (·.2)) := by
    intro l
    induction l with
    | nil => exact .slnil
    | cons x l ih =>
      obtain ⟨b, c⟩ := x
      cases b
      · exact ih.cons c
      · exact ih.cons_cons c
  have names : ((expiries s).map (·.2)).Nodup := by
    show [Instr.supervisorFrameTimeLimit, .fieldFrameTimeLimit, .replyTimeout, .positionTimerExpiry, .scaleTimerExpiry,
      .cycleTimerExpiry, .clockMinute].Nodup
    decide
  exact names.sublist (sub _)

/-- Settles O2: the tick where no timer is due, the one due expiry, or one of several. -/
theorem emptyQueueTicksOrTakesADueExpiry : Obligations.EmptyQueueTicksOrTakesADueExpiry := by
  unfold Obligations.EmptyQueueTicksOrTakesADueExpiry
  intro s hs
  have stepIdle : step s = idle s := by unfold step; rw [hs]
  rw [stepIdle]
  unfold idle
  refine ⟨fun h => ?_, fun c hc only => ?_, fun c d hc hd ne => ?_⟩
  · have none : dueTimers s = [] := List.eq_nil_iff_forall_not_mem.mpr fun c hc => h c ((mem_dueTimers s c).mp hc)
    have rx : ∀ r : Receiver, r.tick = oneMsOn r := fun r => by cases r <;> rfl
    have line : s.line.engine.tick = oneMsLess s.line.engine := by cases s.line.engine <;> rfl
    rw [none, tick, rx, rx, line]
    rfl
  · have one : dueTimers s = [c] := by
      have mem : ∀ e, e ∈ dueTimers s → e = c := fun e he => only e ((mem_dueTimers s e).mp he)
      have has := (mem_dueTimers s c).mpr hc
      have nd := dueTimers_nodup s
      revert mem has nd
      generalize dueTimers s = l
      rcases l with _ | ⟨a, _ | ⟨b, l⟩⟩
      · exact fun _ has _ => absurd has List.not_mem_nil
      · exact fun mem _ _ => by rw [mem a List.mem_cons_self]
      · intro mem _ nd
        have ha := mem a (by simp)
        have hb := mem b (by simp)
        subst ha; subst hb
        simp at nd
    rw [one]
  · have hc := (mem_dueTimers s c).mpr hc
    have hd := (mem_dueTimers s d).mpr hd
    have due : ∀ e ∈ dueTimers s, Due s e := fun e he => (mem_dueTimers s e).mp he
    revert hc hd due
    generalize dueTimers s = l
    rcases l with _ | ⟨a, _ | ⟨b, l⟩⟩
    · exact fun hc => absurd hc List.not_mem_nil
    · intro hc hd
      rw [List.mem_singleton] at hc hd
      exact absurd (hc.trans hd.symm) ne
    · intro _ _ due
      refine ⟨_, due _ ?_, rfl⟩
      have hi : Config.dueChoice s.freeCount % ((b :: l).length + 1) < (a :: b :: l).length := Nat.mod_lt _ (Nat.succ_pos _)
      rw [List.getD_eq_getElem _ _ hi]
      exact List.getElem_mem hi

/-! ## Field frames that are discarded -/

/-- What O38 calls deaf: the restart input asserted, or the part sending on the field line. -/
theorem fieldDeaf_iff (s : State) :
    fieldDeaf s = true ↔ s.pins.restartAsserted = true ∨ ∃ t g, s.line.engine = .sending t g := by
  unfold fieldDeaf
  rw [Bool.or_eq_true]
  cases s.line.engine <;> simp [Engine.driving]

/-- A frame R14 does not hand on. -/
theorem fieldAccepted_iff (f : Frame) : fieldAccepted f = true ↔
    f.dest = 0 ∧ (1 ≤ f.source.toNat ∧ f.source.toNat ≤ 60) ∧ f.kind = 0xC0 ∧ f.payload ≠ [] := by
  simp [fieldAccepted, fieldAddress, kindAnswer, and_assoc]

/-- A frame that matches no waiting transaction changes nothing (R19). -/
theorem matchAnswer_unmatched {f : Frame} {s : State}
    (h : ∀ t n, s.line.engine = .awaiting t n → f.source ≠ t.station ∨ f.tag ≠ t.fieldTag) : matchAnswer f s = s := by
  unfold matchAnswer
  split
  · rename_i t n he
    rw [if_neg]
    rintro ⟨hs, ht⟩
    exact (h t n he).elim (fun k => k hs) fun k => k ht
  · rfl

/-- A whole field frame while the part can hear: dropped, or handed on by R14. -/
theorem exec_fieldFrame_heard {s : State} (hd : fieldDeaf s = false) (f : Frame) (w : Word16) :
    exec (.fieldFrameReceived f w) s = .next
      (if f.wf = true ∧ w = f.check ∧ fieldAccepted f = true then matchAnswer f (setFldRx .hunt s)
      else setFldRx .hunt s) := by
  show Host.Outcome.next (if f.payload.length ≤ Config.maxPayload ∧ w = f.check then takeField f s else dropField s) = _
  have take : takeField f s = if fieldAccepted f then matchAnswer f (setFldRx .hunt s) else setFldRx .hunt s :=
    if_neg (by simp [hd])
  have drop : dropField s = setFldRx .hunt s := if_neg (by simp [hd])
  have hw : f.payload.length ≤ Config.maxPayload ↔ f.wf = true := by simp [Frame.wf]
  rw [take, drop]
  simp only [hw]
  split <;> split <;> simp_all

/-- A field frame that R14 or R19 does not hand on, or that is damaged, only puts the receiver back in HUNT. -/
theorem exec_fieldFrame_dropped {s : State} (hd : fieldDeaf s = false) {f : Frame} {w : Word16}
    (h : f.wf = true → w = f.check → fieldAccepted f = true → matchAnswer f (setFldRx .hunt s) = setFldRx .hunt s) :
    exec (.fieldFrameReceived f w) s = .next (setFldRx .hunt s) := by
  rw [exec_fieldFrame_heard hd]
  split
  · rename_i k
    rw [h k.1 k.2.1 k.2.2]
  · rfl

/-- Settles O38: a deaf line hears nothing; a line that hears drops what R3, R14 and R19 do not hand on. -/
theorem fieldFramesDiscarded : Obligations.FieldFramesDiscarded := by
  unfold Obligations.FieldFramesDiscarded
  refine ⟨fun f w s => ?_, fun s => ⟨fun h => ?_, fun h hr => ?_, fun n hn => ?_⟩⟩
  · dsimp only
    rw [← fieldDeaf_iff]
    refine ⟨fun hd => ?_, fun hd => ?_, rfl⟩
    · have drop : dropField s = s := if_pos hd
      refine ⟨?_, congrArg _ drop, congrArg _ drop, congrArg _ (if_pos hd)⟩
      show Host.Outcome.next (if _ then takeField f s else dropField s) = _
      rw [takeField, if_pos hd, drop, ite_self]
    · have hd : fieldDeaf s = false := by simpa using hd
      have drop : dropField s = setFldRx .hunt s := if_neg (by simp [hd])
      refine ⟨congrArg _ drop, congrArg _ drop, fun h => ?_, fun h => ?_, fun h => ?_, fun h => ?_, fun n h => ?_⟩
      · exact exec_fieldFrame_dropped hd fun hf hw _ => absurd h (by simp [hf, hw])
      · refine exec_fieldFrame_dropped hd fun _ _ ha => ?_
        obtain ⟨h1, h2, h3, h4⟩ := (fieldAccepted_iff f).mp ha
        exact absurd h (by simp [h1, h2, h3, h4])
      · exact exec_fieldFrame_dropped hd fun _ _ _ => matchAnswer_unmatched h
      · show Host.Outcome.next (if fieldDeaf s then s else setFldRx s.sport.fldRx.start s) = _
        rw [if_neg (by simp [hd]), h]
        rfl
      · show Host.Outcome.next (if fieldDeaf s then s else setFldRx s.sport.fldRx.start s) = _
        rw [if_neg (by simp [hd]), h]
        show Host.Outcome.next (setFldRx (.frame n) s) = _
        rw [← h]
        rfl
  · exact congrArg _ (if_pos h)
  · show Host.Outcome.next (if s.pins.restartAsserted then s else setSupRx s.sport.supRx.start s) = _
    rw [if_neg (by simp [h]), hr]
    rfl
  · show Host.Outcome.next (if s.pins.restartAsserted then s else setSupRx s.sport.supRx.start s) = _
    have same : setSupRx s.sport.supRx.start s = s := by
      rw [hn]
      show setSupRx (.frame n) s = s
      rw [← hn]
      rfl
    rw [same, ite_self]

end Sys2Proof.Machine
end

section
/-! Check tables: the checks of R38, R63 to R67 and R112 as rows, and the relay frames they refuse. -/

namespace Sys2Proof.Machine

/-! ## Reading a table -/

/-- What a check table answers: its first failure, or `a` where every row passes. -/
def verdict {α : Type} (l : List Check) (a : α) : Except (Code × Byte) α :=
  match firstFailure l with
  | some e => .error e
  | none => .ok a

/-- A first failure refuses; without one `x` decides. -/
def orFail {α : Type} (o : Option (Code × Byte)) (x : Except (Code × Byte) α) : Except (Code × Byte) α :=
  match o with
  | some e => .error e
  | none => x

section
variable {α : Type} {a : α} {b : Bool} {e : Code × Byte} {l : List Check}

theorem firstFailure_cons : firstFailure ((b, e) :: l) = if b = true then some e else firstFailure l := by
  cases b <;> rfl

theorem firstFailure_skip (hb : b = false) : firstFailure ((b, e) :: l) = firstFailure l := by subst hb; rfl

/-- A check that fails where its row does decides, or the next rows do. -/
theorem firstFailure_step {A : Prop} [Decidable A] {o : Option (Code × Byte)} (hb : b = true ↔ A)
    (h : ¬ A → o = firstFailure l) : (if A then some e else o) = firstFailure ((b, e) :: l) := by
  rw [firstFailure_cons]
  by_cases k : A
  · rw [if_pos k, if_pos (hb.mpr k)]
  · rw [if_neg k, if_neg (mt hb.mp k), h k]

theorem verdict_cons : verdict ((b, e) :: l) a = if b = true then .error e else verdict l a := by
  cases b <;> rfl

theorem verdict_skip {x : Except (Code × Byte) α} (hb : b = false) (h : x = verdict l a) :
    x = verdict ((b, e) :: l) a := by subst hb; exact h

/-- A check that fails where its row does decides, or the next rows do. -/
theorem verdict_step {A : Prop} [Decidable A] {x : Except (Code × Byte) α} (hb : b = true ↔ A)
    (h : ¬ A → x = verdict l a) : (if A then .error e else x) = verdict ((b, e) :: l) a := by
  rw [verdict_cons]
  by_cases k : A
  · rw [if_pos k, if_pos (hb.mpr k)]
  · rw [if_neg k, if_neg (mt hb.mp k), h k]

theorem verdict_error (h : firstFailure l = some e) : verdict l a = .error e := by rw [verdict, h]

theorem verdict_ok (h : firstFailure l = none) : verdict l a = .ok a := by rw [verdict, h]

theorem orFail_ite {A : Prop} [Decidable A] (o : Option (Code × Byte)) (x : Except (Code × Byte) α) :
    orFail (if A then some e else o) x = if A then .error e else orFail o x := by
  split <;> rfl

end

/-! ## The pour block and the dust of a zone -/

theorem overTrip_eq (s : State) (z : Zone) : overTrip s z = (trippedHold s z).isSome := by
  unfold overTrip trippedHold Zone.holdOf
  by_cases hz : z.zoneType = .hold
  · rw [if_pos hz, hz]
    cases z.hold with
    | none => rfl
    | some h =>
      dsimp only
      split
      · rename_i ht; rw [ht]; rfl
      · rename_i ht; rw [beq_false_of_ne ht]; rfl
  · rw [if_neg hz, beq_false_of_ne hz]; rfl

/-- A hold at TRIP under a zone is the zone's own. -/
theorem trippedHold_hold {s : State} {z : Zone} {h : Hold} (ht : trippedHold s z = some h) : zoneHold z = holdByte h := by
  unfold trippedHold Zone.holdOf at ht
  by_cases hz : z.zoneType = .hold
  · rw [if_pos hz] at ht
    unfold zoneHold
    cases hh : z.hold with
    | none => rw [hh] at ht; cases ht
    | some k =>
      rw [hh] at ht
      dsimp only at ht
      split at ht
      · cases ht; rfl
      · cases ht
  · rw [if_neg hz] at ht; cases ht

theorem trippedHold_row (s : State) (z : Zone) : (trippedHold s z).map (fun h => (Code.dustTrip, holdByte h))
    = if overTrip s z = true then some (.dustTrip, zoneHold z) else none := by
  rw [overTrip_eq]
  cases h : trippedHold s z with
  | none => rfl
  | some k => rw [trippedHold_hold h]; rfl

theorem dustBlocked_eq (s : State) (sp : Spout) : dustBlocked s sp = overTrip s (s.zone (s.spouts.get sp).current) := by
  unfold dustBlocked currentHold
  rw [overTrip_eq]
  unfold trippedHold
  cases (s.zone (s.spouts.get sp).current).holdOf with
  | none => rfl
  | some h =>
    dsimp only
    split
    · rename_i ht; rw [ht]; rfl
    · rename_i ht; rw [beq_false_of_ne ht]; rfl

/-- The cause of a pour block is the lowest-numbered that holds (R107). -/
theorem pourBlock_byte (s : State) (sp : Spout) :
    (pourBlock s sp).map BlockCause.byte = if blockCause s sp = 0 then none else some (blockCause s sp) := by
  unfold pourBlock blockCause
  rw [dustBlocked_eq]
  dsimp only
  repeat' split
  all_goals simp_all [BlockCause.byte]

theorem blocked_eq (s : State) (sp : Spout) : blocked s sp = decide (blockCause s sp ≠ 0) := by
  have h := congrArg Option.isSome (pourBlock_byte s sp)
  rw [Option.isSome_map] at h
  rw [blocked, h]
  split
  · rename_i hb; rw [hb]; rfl
  · rename_i hb; exact (decide_eq_true hb).symm

/-! ## The tables of R38 and R112 -/

theorem stationEntryAt_none {s : State} {dest : Byte} (h : stationAt s dest = none) :
    (stationEntryAt s dest).present = false := by
  rw [stationEntryAt, h]; rfl

/-- Check 4 of R38 for a MOVE or a GATE, row by row; no row after it fails. -/
theorem unsuited_rows {s : State} {x : Station} {k : StationKind} {sp : Spout} {l : List Check}
    (hl : firstFailure l = none) :
    ((unsuited s x k sp).map fun j => (Code.wrongKind, j))
      = firstFailure ((x.kind != k, .wrongKind, 1) :: (x.unit != sp.byte, .wrongKind, 2)
          :: (!fitted s sp, .wrongKind, 3) :: l) := by
  unfold unsuited
  simp only [apply_ite (Option.map _)]
  refine firstFailure_step bne_iff_ne fun _ => firstFailure_step bne_iff_ne fun _ => firstFailure_step Iff.rfl fun _ => ?_
  rw [hl]
  rfl

/-- Checks 3 to 5 of R38 are their rows of the arrival table. -/
theorem mapCheck_table (s : State) (tag dest : Byte) (ask : RelayAsk) :
    mapCheck s dest ask = firstFailure (((arrivalTable s tag dest ask).drop 2).take 5) := by
  unfold mapCheck arrivalTable
  simp only [List.drop_succ_cons, List.drop_zero, List.take_succ_cons, List.take_zero]
  cases hx : stationAt s dest with
  | none =>
    rw [firstFailure_cons, stationEntryAt_none hx]
    rfl
  | some x =>
    have entry : stationEntryAt s dest = x := by rw [stationEntryAt, hx]; rfl
    rw [entry]
    dsimp only
    refine firstFailure_step Iff.rfl fun _ => ?_
    cases ask with
    | move m => exact unsuited_rows rfl
    | gate g => exact unsuited_rows rfl
    | plain =>
      refine firstFailure_step (by simp [RelayAsk.needs]) fun _ => ?_
      dsimp only [RelayAsk.needs]
      rw [firstFailure_skip rfl, firstFailure_skip rfl]
      exact firstFailure_step (by simp) fun _ => rfl

/-- Check 6 of R38 is the last two rows of the arrival table. -/
theorem runStateCheck_table (s : State) (ask : RelayAsk) :
    runStateCheck s ask = firstFailure
      [(ask.needsRun && s.runc.state == .config, .notRunning, 0), (ask.needsRun && s.runc.state == .halt, .halted, 0)] := by
  unfold runStateCheck
  cases ask with
  | move m => cases s.runc.state <;> rfl
  | gate g =>
    dsimp only [RelayAsk.needsRun]
    generalize (g.setting != 0) = b
    cases b <;> cases s.runc.state <;> rfl
  | plain => rfl

theorem firstFailure_append (l k : List Check) : firstFailure (l ++ k) = (firstFailure l).or (firstFailure k) := by
  unfold firstFailure
  rw [List.find?_append]
  cases l.find? fun x => x.1 <;> rfl

/-- The arrival checks are their table. -/
theorem arrivalCheck_table (s : State) (tag dest : Byte) (ask : RelayAsk) :
    arrivalCheck s tag dest ask = firstFailure (arrivalTable s tag dest ask) := by
  unfold arrivalCheck
  show _ = firstFailure (_ :: _ :: (((arrivalTable s tag dest ask).drop 2).take 5 ++ [_, _]))
  refine firstFailure_step decide_eq_true_iff fun _ => firstFailure_step Iff.rfl fun _ => ?_
  rw [firstFailure_append, ← mapCheck_table, ← runStateCheck_table]
  cases mapCheck s dest ask <;> rfl

theorem pouringStep_isSome (s : State) (sp : Spout) :
    (pouringStep s sp).isSome = (hasStep s sp .active || hasStep s sp .held) := by
  unfold pouringStep hasStep
  rw [Bool.eq_iff_iff, List.find?_isSome, Bool.or_eq_true, List.any_eq_true, List.any_eq_true]
  simp only [StepRec.pouring, Bool.and_eq_true, Bool.or_eq_true]
  constructor
  · rintro ⟨r, hr, hs, h | h⟩
    · exact .inl ⟨r, hr, hs, h⟩
    · exact .inr ⟨r, hr, hs, h⟩
  · rintro (⟨r, hr, hs, h⟩ | ⟨r, hr, hs, h⟩)
    · exact ⟨r, hr, hs, .inl h⟩
    · exact ⟨r, hr, hs, .inr h⟩

theorem pouringStep_pouring {s : State} {sp : Spout} {r : StepRec} (h : pouringStep s sp = some r) :
    r ∈ s.plan ∧ r.spout = sp ∧ (r.state = .active ∨ r.state = .held) := by
  have hp := List.find?_some h
  simp only [StepRec.pouring, Bool.and_eq_true, Bool.or_eq_true, beq_iff_eq] at hp
  exact ⟨List.mem_of_find?_eq_some h, hp.1, hp.2⟩

/-- GATE's check refuses where its table does. -/
theorem gateCheck_table (s : State) (sp : Spout) :
    (gateCheck s sp).map (fun _ => ()) = verdict (gateTable s sp) () := by
  unfold gateCheck gateTable
  simp only [apply_ite (Except.map fun _ => ())]
  refine verdict_step beq_iff_eq fun _ => verdict_step beq_iff_eq fun _ => verdict_step beq_iff_eq fun _ => ?_
  have hasStep := pouringStep_isSome s sp
  have hb := pourBlock_byte s sp
  cases hr : pouringStep s sp with
  | none =>
    rw [verdict_cons, ← hasStep, hr]
    rfl
  | some r =>
    refine verdict_skip (by rw [← hasStep, hr]; rfl) ?_
    dsimp only
    cases hc : pourBlock s sp with
    | some c =>
      rw [hc] at hb
      split at hb
      · cases hb
      · rename_i k
        rw [verdict_cons, if_pos (bne_iff_ne.mpr k), ← Option.some.inj hb]
        rfl
    | none =>
      rw [hc] at hb
      split at hb
      · rename_i k
        refine verdict_skip (by rw [k]; rfl) ?_
        rw [apply_ite (Except.map fun _ => ())]
        exact verdict_step beq_iff_eq fun _ => rfl
      · cases hb

/-- Where GATE's check passes, its answer is the cap of the step that pours. -/
theorem gateCheck_ok {s : State} {sp : Spout} {c : Setting} (h : gateCheck s sp = .ok c) :
    ∃ r, pouringStep s sp = some r ∧ c = capOfStep s r := by
  unfold gateCheck at h
  split at h
  · cases h
  · split at h
    · cases h
    · split at h
      · cases h
      · split at h
        · cases h
        · rename_i r hr
          split at h
          · cases h
          · split at h
            · cases h
            · cases h; exact ⟨r, hr, rfl⟩

/-- Without the value, an outcome's error is the outcome's. -/
theorem error_of_map {α β : Type} {f : α → β} {x : Except (Code × Byte) α} {e : Code × Byte}
    (h : x.map f = .error e) : x = .error e := by
  cases x with
  | error k => cases h; rfl
  | ok a => cases h

theorem gateCheck_error {s : State} {sp : Spout} {e : Code × Byte} (h : firstFailure (gateTable s sp) = some e) :
    gateCheck s sp = .error e :=
  error_of_map ((gateCheck_table s sp).trans (verdict_error h))

/-! ## Relay frames that are refused -/

section
variable {s : State} {tag dest kind : Byte} {arrival : State → State}

/-- A relay frame to no field station is refused BAD_DEST. -/
theorem relayTaken_badDest (hd : fieldAddress dest = false) :
    relayTaken tag dest kind arrival s = pushReady (refusalAnswer tag .badDest dest kind) s :=
  if_neg (by simp [hd])

theorem relayTaken_station (hd : fieldAddress dest = true) :
    relayTaken tag dest kind arrival s = arbitrate (arrival s) := if_pos hd

end

theorem gateArrival_refused {s : State} {tag dest : Byte} {g : GateFields} {e : Code × Byte}
    (h : firstFailure (arrivalTable s tag dest (.gate g)) = some e) :
    gateArrival tag dest g s = refuseArrival tag kindGate e s := by
  rw [gateArrival, arrivalCheck_table, h]

theorem gateArrival_checked {s : State} {tag dest : Byte} {g : GateFields} {e : Code × Byte}
    (ha : firstFailure (arrivalTable s tag dest (.gate g)) = none) (hg : g.setting ≠ 0)
    (h : firstFailure (gateTable s g.spout) = some e) : gateArrival tag dest g s = refuseArrival tag kindGate e s := by
  rw [gateArrival, arrivalCheck_table, ha]
  dsimp only
  rw [if_neg hg, gateCheck_error h]

theorem plainArrival_refused {s : State} {tag dest : Byte} {data : List Byte} {e : Code × Byte}
    (h : firstFailure (arrivalTable s tag dest .plain) = some e) :
    plainArrival tag dest data s = refuseArrival tag kindPlain e s := by
  rw [plainArrival, arrivalCheck_table, h]

/-- Settles O33: RELAY's and GATE's checks are their tables, and a refusal is all they leave. -/
theorem gateAndPlainChecksInOrder : Obligations.GateAndPlainChecksInOrder := by
  unfold Obligations.GateAndPlainChecksInOrder
  refine ⟨fun tag dest g s h => ?_, fun tag dest data s h hl => ?_, pourBlock_byte⟩
  · have taken : exec (.gate tag dest g) s = .next (takeGate tag dest g (heard s)) := congrArg _ (receive_taken h _)
    rw [taken, takeGate]
    refine ⟨fun hd => ?_, fun reason subject hd ha => ?_, fun reason subject hd ha hg hc => ?_⟩
    · rw [relayTaken_badDest hd]; rfl
    · rw [relayTaken_station hd]
      exact congrArg (fun t => Host.Outcome.next (arbitrate t)) (gateArrival_refused (s := heard s) ha)
    · rw [relayTaken_station hd]
      exact congrArg (fun t => Host.Outcome.next (arbitrate t)) (gateArrival_checked (s := heard s) ha hg hc)
  · have taken : exec (.plain tag dest data) s = .next (takePlain tag dest data (heard s)) := by
      show Host.Outcome.next (if data.length ≤ 48 then receive (takePlain tag dest data) s else _) = _
      rw [if_pos hl, receive_taken h]
    rw [taken, takePlain]
    refine ⟨fun hd => ?_, fun reason subject hd ha => ?_⟩
    · rw [relayTaken_badDest hd]; rfl
    · rw [relayTaken_station hd]
      exact congrArg (fun t => Host.Outcome.next (arbitrate t)) (plainArrival_refused (s := heard s) ha)

end Sys2Proof.Machine
end

section
/-! The MOVE check sequence (R63 to R67) as its table. -/

namespace Sys2Proof.Machine

section
variable (s : State)

theorem effectiveLevel_val (l : Level) : (effectiveLevel s l).val = largerLevel l s.console := by
  unfold effectiveLevel largerLevel
  split <;> omega

theorem zoneAt_of_index {b : Byte} {i : ZoneIx} (h : zoneIx? b = some i) : zoneAt s b = s.zone i := by
  rw [zoneAt, h]

/-- A zone index byte below 64 names its own number. -/
theorem zoneIx_some {b : Byte} {i : ZoneIx} (h : zoneIx? b = some i) : i.val = b.toNat := by
  unfold zoneIx? at h
  split at h
  · cases h; rfl
  · cases h

theorem zoneIx_none {b : Byte} (h : zoneIx? b = none) : 64 ≤ b.toNat := by
  unfold zoneIx? at h
  split at h
  · cases h
  · omega

theorem activeStep_isSome (sp : Spout) :
    (activeStep s sp).isSome = s.plan.any fun q => q.spout == sp && q.state == .active := by
  rw [Bool.eq_iff_iff, activeStep, List.find?_isSome, List.any_eq_true]

/-! ## The sequence's parts -/

/-- The route's checks are their rows of the table, for a journey to the zone `b` names. -/
theorem routeFault_rows (hl : s.zones.limit ≤ 64) {route b : Byte} {eff : Level} {level : Nat} {cur i : ZoneIx}
    (hi : i.val = b.toNat) (he : eff.val = level) :
    routeFault s route eff cur i = firstFailure
      [(route == 0, .routeNone, 0),
       (decide (s.zones.limit ≤ route.toNat), .routeLimit, route),
       ((zoneAt s route).zoneType != .route, .routeType, route),
       (decide ((zoneAt s route).level.val < level), .routeLevel, route),
       (!(zoneAt s route).present, .routeAbsent, route),
       ((zoneAt s route).fromZone.toNat != cur.val || (zoneAt s route).toZone != b, .routeMismatch, route)] := by
  unfold routeFault
  refine firstFailure_step beq_iff_eq fun _ => ?_
  cases hr : zoneIx? route with
  | none =>
    have := zoneIx_none hr
    rw [firstFailure_cons, if_pos (decide_eq_true (by omega))]
  | some j =>
    rw [zoneAt_of_index s hr, ← zoneIx_some hr, ← he]
    refine firstFailure_step decide_eq_true_iff fun _ => firstFailure_step bne_iff_ne fun _ =>
      firstFailure_step decide_eq_true_iff fun _ => firstFailure_step Iff.rfl fun _ => firstFailure_step ?_ fun _ => rfl
    rw [Bool.or_eq_true, bne_iff_ne, bne_iff_ne, hi, ne_eq, ne_eq, ← BitVec.toNat_inj]

/-- Check 9 is its four rows. -/
theorem axisOutside_rows (z : Zone) (m : MoveFields) :
    ((axisOutside s z m).map fun axis => (Code.outOfZone, axis)) = firstFailure
      [(!(decide (z.box.railMin.toNat ≤ m.rail.toNat) && decide (m.rail.toNat ≤ z.box.railMax.toNat)), .outOfZone, 0),
       (!(decide (z.box.slewMin.toInt ≤ m.slew.toInt) && decide (m.slew.toInt ≤ z.box.slewMax.toInt)), .outOfZone, 1),
       (!(decide (z.box.reachMin.toNat ≤ m.reach.toNat) && decide (m.reach.toNat ≤ z.box.reachMax.toNat)), .outOfZone, 2),
       (!(decide (z.box.lowerMin.toNat ≤ m.lower.toNat) && decide (m.lower.toNat ≤ (effLowerMax s z).toNat)),
         .outOfZone, 3)] := by
  have nat : ∀ x y c : Nat, (!(decide (x ≤ c) && decide (c ≤ y))) = true ↔ c < x ∨ y < c := by
    intro x y c; simp
  have int : ∀ x y c : Int, (!(decide (x ≤ c) && decide (c ≤ y))) = true ↔ c < x ∨ y < c := by
    intro x y c; simp
  unfold axisOutside
  simp only [apply_ite (Option.map _)]
  exact firstFailure_step (nat _ _ _) fun _ => firstFailure_step (int _ _ _) fun _ => firstFailure_step (nat _ _ _) fun _ =>
    firstFailure_step (nat _ _ _) fun _ => rfl

/-- The checks of a MOVE that is no recovery move, each nested check as the failure it can give. -/
theorem normalMoveCheck_eq (m : MoveFields) (eff : Level) (i : ZoneIx) :
    normalMoveCheck s m eff i =
      orFail ((axisOutside s (s.zone i) m).map fun axis => (Code.outOfZone, axis))
        (if (s.spouts.get m.spout).state = .moving ∧ i ≠ (s.spouts.get m.spout).target then
          .error (.spoutMoving, byteOfNat (s.spouts.get m.spout).target.val)
        else if i ≠ (s.spouts.get m.spout).current then
          if (s.gates.get m.spout).state ≠ .rest .closed then .error (.gateOpen, m.spout.byte)
          else if (activeStep s m.spout).isSome then .error (.stepActive, m.spout.byte)
          else orFail (routeFault s m.route eff (s.spouts.get m.spout).current i)
            (orFail ((trippedHold s (s.zone i)).map fun h => (Code.dustTrip, holdByte h))
              (if claimedByOther s m.spout i then .error (.zoneClaimed, m.target) else .ok .zoneChange))
        else if claimedByOther s m.spout i then .error (.zoneClaimed, m.target)
        else if overTrip s (s.zone (s.spouts.get m.spout).current) = true ∧
            (s.spouts.get m.spout).position.lower.toNat < m.lower.toNat then
          .error (.dustTrip, zoneHold (s.zone (s.spouts.get m.spout).current))
        else .ok .sameZone) := by
  unfold normalMoveCheck
  rw [overTrip_eq]
  dsimp only
  cases axisOutside s (s.zone i) m with
  | some axis => rfl
  | none =>
    cases ht : trippedHold s (s.zone (s.spouts.get m.spout).current) with
    | none =>
      cases routeFault s m.route eff (s.spouts.get m.spout).current i <;> cases trippedHold s (s.zone i) <;> rfl
    | some h =>
      rw [trippedHold_hold ht]
      simp only [Option.isSome_some, true_and]
      cases routeFault s m.route eff (s.spouts.get m.spout).current i <;> cases trippedHold s (s.zone i) <;> rfl

end

/-! ## The table read through -/

theorem orFail_rows {α : Type} {a : α} {k l : List Check} {x : Except (Code × Byte) α} (h : x = verdict l a) :
    orFail (firstFailure k) x = verdict (k ++ l) a := by
  subst h
  unfold orFail verdict
  rw [firstFailure_append]
  cases firstFailure k <;> rfl

section
variable {s : State} {m : MoveFields} {i : ZoneIx} {eff : Level}

/-- The target named by another index is another zone. -/
theorem target_bne (hi : i.val = m.target.toNat) (j : ZoneIx) : (m.target.toNat != j.val) = decide (i ≠ j) := by
  rw [← hi, bne, beq_eq_decide, ← decide_not]
  simp only [ne_eq, Fin.ext_iff]

theorem claimedByOther_iff (s : State) (sp : Spout) (i : ZoneIx) :
    ((s.zone i).owner == some (otherSpout sp)) = true ↔ claimedByOther s sp i = true := Iff.rfl

/-- Checks 8 and 14 of a recovery move are the table's rows from the eighth on. -/
theorem recoveryMoveCheck_table (hi : i.val = m.target.toNat) (hz : zoneAt s m.target = s.zone i)
    (he : eff.val = largerLevel m.level s.console) (hr : recovering (s.spouts.get m.spout) = true) :
    recoveryMoveCheck s m eff i = verdict ((moveTable s m).drop 8) (moveClass s m) := by
  have cls : moveClass s m = .recovery := by unfold moveClass; rw [if_pos hr]
  have level : (largerLevel m.level s.console != 0) = true ↔ eff ≠ 0 := by
    rw [← he, bne_iff_ne, ne_eq, ne_eq, Fin.ext_iff]; rfl
  rw [cls]
  unfold recoveryMoveCheck moveTable
  dsimp only
  simp only [List.drop_succ_cons, List.drop_zero, hr, hz, Bool.not_true, Bool.true_and, Bool.false_and]
  refine verdict_step level fun _ => verdict_step ?_ fun _ => ?_
  · rw [target_bne hi]; simp
  · iterate 14 refine verdict_skip rfl ?_
    exact verdict_step Iff.rfl fun _ => verdict_skip rfl rfl

/-- Checks 9 to 15 of any other MOVE are the table's rows from the eighth on. -/
theorem normalMoveCheck_table (hl : s.zones.limit ≤ 64) (hi : i.val = m.target.toNat)
    (hz : zoneAt s m.target = s.zone i) (he : eff.val = largerLevel m.level s.console)
    (hr : recovering (s.spouts.get m.spout) = false) :
    normalMoveCheck s m eff i = verdict ((moveTable s m).drop 8) (moveClass s m) := by
  rw [normalMoveCheck_eq, axisOutside_rows, routeFault_rows s hl hi he, trippedHold_row, activeStep_isSome]
  unfold moveTable
  dsimp only
  simp only [List.drop_succ_cons, List.drop_zero, hr, hz, Bool.not_false, Bool.true_and, Bool.false_and]
  refine verdict_skip rfl (verdict_skip rfl (orFail_rows (verdict_step ?_ fun _ => ?_)))
  · rw [target_bne hi]; simp
  by_cases hc : i = (s.spouts.get m.spout).current
  · have same : m.target.toNat = (s.spouts.get m.spout).current.val := by rw [← hi, hc]
    have cls : moveClass s m = .sameZone := by
      unfold moveClass; rw [if_neg (by simp [hr]), if_pos same]
    rw [if_neg (not_not.mpr hc), cls]
    simp only [same, bne_self_eq_false, beq_self_eq_true, Bool.false_and, Bool.true_and]
    iterate 9 refine verdict_skip rfl ?_
    exact verdict_step Iff.rfl fun _ => verdict_step (by simp) fun _ => rfl
  · have change : (m.target.toNat != (s.spouts.get m.spout).current.val) = true := by rw [target_bne hi]; simpa using hc
    have stay : (m.target.toNat == (s.spouts.get m.spout).current.val) = false := by simpa [bne] using change
    have cls : moveClass s m = .zoneChange := by
      unfold moveClass; rw [if_neg (by simp [hr]), if_neg (by simpa using change)]
    rw [if_pos hc, cls]
    simp only [change, stay, Bool.true_and, Bool.false_and]
    refine verdict_step bne_iff_ne fun _ => verdict_step Iff.rfl fun _ => orFail_rows ?_
    rw [orFail_ite]
    exact verdict_step Iff.rfl fun _ => verdict_step Iff.rfl fun _ => verdict_skip rfl rfl

/-- The MOVE check sequence, its two halves in line. -/
theorem moveCheck_eq (s : State) (m : MoveFields) : moveCheck s m =
    if s.runc.state = .config then .error (.notRunning, 0)
    else if s.runc.state = .halt then .error (.halted, 0)
    else if (s.spouts.get m.spout).state = .unknown then .error (.spoutUnknown, m.spout.byte)
    else (admitZone s m.target (effectiveLevel s m.level)).bind fun i =>
      (if recovering (s.spouts.get m.spout) = true then recoveryMoveCheck s m (effectiveLevel s m.level) i
      else normalMoveCheck s m (effectiveLevel s m.level) i).map fun cls => (cls, i) := by
  have rec_ : recovering (s.spouts.get m.spout) = true ↔ (s.spouts.get m.spout).state = .lost ∨
      ((s.spouts.get m.spout).state = .moving ∧ (s.spouts.get m.spout).recovery = true) := by
    simp [recovering]
  unfold moveCheck
  simp only [← rec_]
  cases admitZone s m.target (effectiveLevel s m.level) with
  | error e => rfl
  | ok i =>
    dsimp only [Except.bind]
    cases recovering (s.spouts.get m.spout) with
    | true => cases recoveryMoveCheck s m (effectiveLevel s m.level) i <;> rfl
    | false => cases normalMoveCheck s m (effectiveLevel s m.level) i <;> rfl

/-- Checks 3 to 7 of R63 on the target are the rows 4 to 8 of the table; what follows reads the zone they admit. -/
theorem admitZone_rows {α : Type} {a : α} {l : List Check} {f : ZoneIx → Except (Code × Byte) α} {t : Byte} {level : Nat}
    (hl : s.zones.limit ≤ 64) (he : eff.val = level)
    (h : ∀ i : ZoneIx, i.val = t.toNat → zoneAt s t = s.zone i → f i = verdict l a) :
    (admitZone s t eff).bind f = verdict
      ((t == 0, .nullZone, 0) :: (decide (s.zones.limit ≤ t.toNat), .zoneLimit, t)
        :: ((zoneAt s t).zoneType == .route, .zoneType, t) :: (decide ((zoneAt s t).level.val < level), .zoneLevel, t)
        :: (!(zoneAt s t).present, .zoneAbsent, t) :: l) a := by
  have through : ∀ {A : Prop} [Decidable A] (e : Code × Byte) (x : Except (Code × Byte) ZoneIx),
      (if A then .error e else x).bind f = if A then .error e else x.bind f := by
    intro A _ e x; split <;> rfl
  unfold admitZone
  rw [through]
  refine verdict_step beq_iff_eq fun _ => ?_
  cases hz : zoneIx? t with
  | none =>
    have := zoneIx_none hz
    rw [verdict_cons, if_pos (decide_eq_true (by omega))]
    rfl
  | some i =>
    have entry := zoneAt_of_index s hz
    rw [entry, ← he]
    dsimp only
    simp only [through]
    refine verdict_step (by rw [decide_eq_true_iff, zoneIx_some hz]) fun _ => verdict_step beq_iff_eq fun _ =>
      verdict_step decide_eq_true_iff fun _ => verdict_step Iff.rfl fun _ => h i (zoneIx_some hz) entry

/-- The class a MOVE's checks give it is what its table gives: the first failing row, or the class of R64 and R65. -/
theorem moveCheck_table (s : State) (m : MoveFields) (hl : s.zones.limit ≤ 64) :
    (moveCheck s m).map Prod.fst = verdict (moveTable s m) (moveClass s m) := by
  have forget : ∀ (x : Except (Code × Byte) ZoneIx) (g : ZoneIx → Except (Code × Byte) MoveClass),
      (x.bind fun i => (g i).map fun cls => (cls, i)).map Prod.fst = x.bind g := by
    intro x g
    cases x with
    | error e => rfl
    | ok i => dsimp only [Except.bind]; cases g i <;> rfl
  rw [moveCheck_eq]
  simp only [apply_ite (Except.map Prod.fst), forget]
  refine verdict_step beq_iff_eq fun _ => verdict_step beq_iff_eq fun _ => verdict_step beq_iff_eq fun _ => ?_
  refine admitZone_rows (l := (moveTable s m).drop 8) hl (effectiveLevel_val s m.level) fun i hi hz => ?_
  split
  · rename_i hr
    exact recoveryMoveCheck_table hi hz (effectiveLevel_val s m.level) hr
  · rename_i hr
    exact normalMoveCheck_table hl hi hz (effectiveLevel_val s m.level) (by simpa using hr)

theorem map_eq_ok {α β : Type} {f : α → β} {x : Except (Code × Byte) α} {b : β} (h : x.map f = .ok b) :
    ∃ a, f a = b := by
  cases x with
  | error e => cases h
  | ok a => cases h; exact ⟨a, rfl⟩

/-- The index a passing MOVE gets is its target's. -/
theorem moveCheck_index {c : MoveClass} (h : moveCheck s m = .ok (c, i)) : i.val = m.target.toNat := by
  rw [moveCheck_eq] at h
  have admitted : ∀ j, admitZone s m.target (effectiveLevel s m.level) = .ok j → j.val = m.target.toNat := by
    intro j hj
    unfold admitZone at hj
    split at hj
    · cases hj
    · split at hj
      · cases hj
      · rename_i k hk
        repeat' split at hj
        all_goals cases hj
        exact zoneIx_some hk
  split at h
  · cases h
  · split at h
    · cases h
    · split at h
      · cases h
      · cases ha : admitZone s m.target (effectiveLevel s m.level) with
        | error e => rw [ha] at h; cases h
        | ok j =>
          rw [ha] at h
          dsimp only [Except.bind] at h
          obtain ⟨_, e⟩ := map_eq_ok h
          cases e
          exact admitted _ ha

end

/-! ## A MOVE refused -/

theorem moveArrival_refused {s : State} {tag dest : Byte} {m : MoveFields} {e : Code × Byte}
    (h : firstFailure (arrivalTable s tag dest (.move m)) = some e) :
    moveArrival tag dest m s = refuseArrival tag kindMove e s := by
  rw [moveArrival, arrivalCheck_table, h]

theorem moveArrival_checked {s : State} {tag dest : Byte} {m : MoveFields} {e : Code × Byte} (hl : s.zones.limit ≤ 64)
    (ha : firstFailure (arrivalTable s tag dest (.move m)) = none) (h : firstFailure (moveTable s m) = some e) :
    moveArrival tag dest m s = refuseArrival tag kindMove e s := by
  have refused : moveCheck s m = .error e := error_of_map ((moveCheck_table s m hl).trans (verdict_error h))
  rw [moveArrival, arrivalCheck_table, ha]
  dsimp only
  rw [refused]

/-- Settles O31: both tables in order, and the class of a MOVE that passes. -/
theorem moveChecksInOrder : Obligations.MoveChecksInOrder := by
  unfold Obligations.MoveChecksInOrder
  intro tag dest m s hl
  have taken : Taken s → exec (.move tag dest m) s = .next (takeMove tag dest m (heard s)) :=
    fun h => congrArg _ (receive_taken h _)
  refine ⟨fun h hd => ?_, fun reason subject h hd ha => ?_, fun reason subject h hd ha hc => ?_, fun h => ?_⟩
  · rw [taken h, takeMove, relayTaken_badDest hd]; rfl
  · rw [taken h, takeMove, relayTaken_station hd]
    exact congrArg (fun t => Host.Outcome.next (arbitrate t)) (moveArrival_refused (s := heard s) ha)
  · rw [taken h, takeMove, relayTaken_station hd]
    exact congrArg (fun t => Host.Outcome.next (arbitrate t)) (moveArrival_checked (s := heard s) hl ha hc)
  · have passed := (moveCheck_table s m hl).trans (verdict_ok h)
    cases hm : moveCheck s m with
    | error e => rw [hm] at passed; cases passed
    | ok x =>
      rw [hm] at passed
      obtain ⟨cls, i⟩ := x
      cases passed
      exact ⟨i, moveCheck_index hm, rfl⟩

end Sys2Proof.Machine
end

section
/-! The order queue and the arbiter (R21, R29 to R31, R43, R44). -/

namespace Sys2Proof.Machine

/-! ## What no block's work adds to the relay queue -/

theorem keepsPlan_relayQueue : KeepsPlan State.relayQueue := by constructor <;> intros <;> rfl

theorem answerEntry_queue (e : RelayEntry) (a : Answer) (s : State) :
    (answerEntry e a s).relayQueue = s.relayQueue.filter fun x => x.tag ≠ e.tag := rfl

theorem preempt_queue (p : RelayEntry → Bool) (c : Code) (x : Byte) (s : State) :
    (preempt p c x s).relayQueue.Sublist s.relayQueue := by
  unfold preempt
  generalize (s.relayQueue.filter fun e => !e.onLine && p e) = l
  induction l generalizing s with
  | nil => exact .refl _
  | cons e l ih => exact (ih (refuseEntry c x e s)).trans List.filter_sublist

theorem evaluateBlock_queue (was : Bool) (sp : Spout) (s : State) :
    (evaluateBlock was sp s).relayQueue.Sublist s.relayQueue := by
  unfold evaluateBlock
  split
  · dsimp only
    rw [holdStep_keeps keepsPlan_relayQueue]
    split
    · rw [closeUnlessClosed_keeps keepsPlan_relayQueue]
    · refine (preempt_queue _ _ _ _).trans ?_
      rw [closeUnlessClosed_keeps keepsPlan_relayQueue]
  · exact .refl _

theorem tellSpout_queue (before : State) (sp : Spout) (s : State) :
    (tellSpout before sp s).relayQueue.Sublist s.relayQueue := by
  unfold tellSpout
  split
  · exact .refl _
  · dsimp only
    rw [leaveHold_keeps keepsPlan_relayQueue]
    have lost : (if enteredLost before s sp then preempt (isMoveOf sp) .spoutLost sp.byte (postStop sp s)
        else s).relayQueue.Sublist s.relayQueue := by
      split
      · refine (preempt_queue _ _ _ _).trans ?_
        rw [postStop_keeps keepsPlan_relayQueue]
      · exact .refl _
    refine List.Sublist.trans ?_ lost
    refine List.Sublist.trans ?_ (evaluateBlock_queue (blocked before sp) sp _)
    split <;> split <;> simp only [setNotice_keeps keepsPlan_relayQueue, List.Sublist.refl]

theorem tcuKnown_queue (before s : State) : (tcuKnown before s).relayQueue.Sublist s.relayQueue := by
  have told : (tellSpout before .b (tellSpout before .a s)).relayQueue.Sublist s.relayQueue :=
    (tellSpout_queue _ _ _).trans (tellSpout_queue _ _ _)
  unfold tcuKnown
  dsimp only
  split
  · exact told
  · rw [activationTest_keeps keepsPlan_relayQueue]; exact told

theorem dropTarget_queue (sp : Spout) (s : State) : (dropTarget sp s).relayQueue = s.relayQueue := by
  unfold dropTarget releaseZone
  dsimp only
  split
  · rfl
  · split <;> rfl

theorem undoMove_queue (sp : Spout) (b : Byte) (s : State) : (undoMove sp b s).relayQueue.Sublist s.relayQueue := by
  unfold undoMove
  dsimp only
  split
  · refine (tcuKnown_queue _ _).trans ?_
    show (dropTarget sp s).relayQueue.Sublist _
    rw [dropTarget_queue]
  · exact .refl _

theorem withdrawMove_queue (e : RelayEntry) (s : State) : (withdrawMove e s).relayQueue.Sublist s.relayQueue := by
  unfold withdrawMove
  split
  · exact undoMove_queue _ _ _
  · exact .refl _

/-! ## The order queue -/

theorem queueOrder_cases (o : Order) (q : List Order) :
    ((∀ x ∈ q, x.station ≠ o.station) → queueOrder o q = q ++ [o]) ∧
    ((∃ x ∈ q, x.station = o.station) → o.kind = .allStop → queueOrder o q = q) ∧
    ((∃ x ∈ q, x.station = o.station) → o.kind ≠ .allStop →
      queueOrder o q = q.map fun x => if x.station = o.station then o else x) := by
  have any : (q.any fun x => x.station == o.station) = true ↔ ∃ x ∈ q, x.station = o.station := by
    simp [List.any_eq_true]
  unfold queueOrder
  refine ⟨fun h => if_neg ?_, fun h hk => ?_, fun h hk => ?_⟩
  · rw [any]; rintro ⟨x, hx, e⟩; exact h x hx e
  · rw [if_pos (any.mpr h), if_pos hk]
  · rw [if_pos (any.mpr h), if_neg hk]

/-! ## The next poll -/

theorem PollKind.rank_lt (k : PollKind) : k.rank < 5 := by
  cases k with
  | position sp => cases sp <;> decide
  | scale sp => cases sp <;> decide
  | dust i => exact Nat.lt_succ_self 4

/-- The first poll found over rising ranks has the least rank of those that are left. -/
theorem least_rank (l : List Poll) (n k : Nat) :
    match (List.range' k n).findSome? fun r => l.find? fun p => p.kind.rank == r with
    | some p => p ∈ l ∧ ∀ q ∈ l, k ≤ q.kind.rank → p.kind.rank ≤ q.kind.rank
    | none => ∀ q ∈ l, q.kind.rank < k ∨ k + n ≤ q.kind.rank := by
  induction n generalizing k with
  | zero => intro q _; exact Nat.lt_or_ge _ _
  | succ n ih =>
    rw [List.range'_succ, List.findSome?_cons]
    cases hk : l.find? fun p => p.kind.rank == k with
    | some p =>
      have rank : p.kind.rank = k := by simpa using List.find?_some hk
      exact ⟨List.mem_of_find?_eq_some hk, fun q _ h => rank ▸ h⟩
    | none =>
      have not : ∀ q ∈ l, q.kind.rank ≠ k := fun q hq => by simpa using List.find?_eq_none.mp hk q hq
      have ih := ih (k + 1)
      dsimp only
      split at ih
      · rename_i p hp
        rw [hp]
        refine ⟨ih.1, fun q hq h => ih.2 q hq ?_⟩
        have := not q hq
        omega
      · rename_i hp
        rw [hp]
        intro q hq
        have := not q hq
        have := ih q hq
        omega

/-- A poll waits: the arbiter's poll is one of the least rank. -/
theorem nextPoll_some {s : State} (h : s.polls ≠ []) :
    ∃ p ∈ s.polls, nextPoll s = some p ∧ ∀ q ∈ s.polls, p.kind.rank ≤ q.kind.rank := by
  have least := least_rank s.polls 5 0
  have found : nextPoll s = (List.range' 0 5).findSome? fun r => s.polls.find? fun p => p.kind.rank == r := rfl
  rw [← found] at least
  cases hp : nextPoll s with
  | some p =>
    rw [hp] at least
    exact ⟨p, least.1, rfl, fun q hq => least.2 q hq (Nat.zero_le _)⟩
  | none =>
    rw [hp] at least
    obtain ⟨q, hq⟩ := List.exists_mem_of_ne_nil _ h
    have := least q hq
    have := q.kind.rank_lt
    omega

theorem nextPoll_none {s : State} (h : s.polls = []) : nextPoll s = none := by
  unfold nextPoll
  rw [h]
  rfl

/-! ## The arbiter's choice -/

/-- One attempt of an order is what `orderSent` writes. -/
theorem startOrder_sent (k : OrderKind) (poster : Poster) (station : Byte) (n : Nat) (s : State) :
    startOrder k poster station n s = orderSent k poster station n s := by
  cases k <;> rfl

theorem arbitrate_idle {s : State} (h : s.line.engine ≠ .free ∨ s.pins.restartAsserted = true) : arbitrate s = s := by
  rw [arbitrate, if_neg]
  rintro ⟨he, hp⟩
  exact h.elim (fun k => k he) fun k => by rw [hp] at k; cases k

theorem arbitrate_free {s : State} (he : s.line.engine = .free) (hp : s.pins.restartAsserted = false) :
    arbitrate s = arbiterRun (s.relayQueue.length + 1) s := if_pos ⟨he, hp⟩

section
variable {s : State} (fuel : Nat)

theorem arbiterRun_order {o : Order} {rest : List Order} (h : s.orders = o :: rest) :
    arbiterRun (fuel + 1) s = orderSent o.kind o.poster o.station 1 (s.withOrders rest) := by
  rw [arbiterRun, h]
  exact startOrder_sent _ _ _ _ _

theorem arbiterRun_poll {p : Poll} (ho : s.orders = []) (hp : nextPoll s = some p)
    (h : s.line.lastServed = .relays ∨ oldestQueued s = none) : arbiterRun (fuel + 1) s = startPoll p s := by
  rw [arbiterRun, ho, hp]
  rcases h with h | h
  · rw [h]
  · rw [h]; cases s.line.lastServed <;> rfl

theorem arbiterRun_entry {e : RelayEntry} {body : RelayBody} (ho : s.orders = []) (he : oldestQueued s = some e)
    (h : s.line.lastServed = .polls ∨ nextPoll s = none) (hd : dispatchCheck s e = .ok body) :
    arbiterRun (fuel + 1) s = startRelay e body s := by
  rw [arbiterRun, ho, he]
  rcases h with h | h
  · rw [h]; cases nextPoll s <;> simp only [hd]
  · rw [h]; cases s.line.lastServed <;> simp only [hd]

theorem arbiterRun_refused {e : RelayEntry} {x : Code × Byte} (ho : s.orders = []) (he : oldestQueued s = some e)
    (h : s.line.lastServed = .polls ∨ nextPoll s = none) (hd : dispatchCheck s e = .error x) :
    arbiterRun (fuel + 1) s = arbiterRun fuel (withdrawMove e (refuseEntry x.1 x.2 e s)) := by
  rw [arbiterRun, ho, he]
  rcases h with h | h
  · rw [h]; cases nextPoll s <;> simp only [hd]
  · rw [h]; cases s.line.lastServed <;> simp only [hd]

theorem arbiterRun_none (ho : s.orders = []) (hp : nextPoll s = none) (he : oldestQueued s = none) :
    arbiterRun (fuel + 1) s = s := by
  rw [arbiterRun, ho, hp, he]
  cases s.line.lastServed <;> rfl

end

/-- An entry that is refused and withdrawn leaves the queue shorter. -/
theorem withdrawn_shorter {s : State} {e : RelayEntry} (he : e ∈ s.relayQueue) (c : Code) (x : Byte) :
    (withdrawMove e (refuseEntry c x e s)).relayQueue.length < s.relayQueue.length := by
  refine Nat.lt_of_le_of_lt (withdrawMove_queue e _).length_le ?_
  show (s.relayQueue.filter _).length < _
  refine Nat.lt_of_le_of_ne (List.length_filter_le _ _) fun h => ?_
  have := List.length_filter_eq_length_iff.mp h e he
  simp at this

/-- One run more than the queue holds entries is enough: more changes nothing. -/
theorem arbiterRun_enough (f g : Nat) (s : State) (hf : s.relayQueue.length < f) (hg : s.relayQueue.length < g) :
    arbiterRun f s = arbiterRun g s := by
  induction f generalizing g s with
  | zero => exact absurd hf (Nat.not_lt_zero _)
  | succ f ih =>
    obtain ⟨g, rfl⟩ : ∃ k, g = k + 1 := ⟨g - 1, by omega⟩
    unfold arbiterRun
    split
    · rfl
    · split
      · rfl
      · rename_i he _
        split
        · rfl
        · have := withdrawn_shorter (oldestQueued_mem s he)
          rename_i x _
          have := this x.1 x.2
          exact ih g _ (by omega) (by omega)
      · rfl
      · rfl

theorem keepsTravel_line : KeepsTravel State.line :=
  ⟨⟨by constructor <;> intros <;> rfl, fun _ _ => rfl, fun _ _ => rfl⟩, fun _ _ => rfl, fun _ _ => rfl⟩

theorem keepsTravel_pins : KeepsTravel State.pins :=
  ⟨⟨by constructor <;> intros <;> rfl, fun _ _ => rfl, fun _ _ => rfl⟩, fun _ _ => rfl, fun _ _ => rfl⟩

/-- What a refused and withdrawn entry leaves of the field line and the pins: everything. -/
theorem withdrawn_line (s : State) (e : RelayEntry) (c : Code) (x : Byte) :
    (withdrawMove e (refuseEntry c x e s)).line = s.line ∧ (withdrawMove e (refuseEntry c x e s)).pins = s.pins := by
  rw [withdrawMove_keeps keepsTravel_line, withdrawMove_keeps keepsTravel_pins,
    refuseEntry_keeps keepsTravel_line.toKeepsBlock, refuseEntry_keeps keepsTravel_pins.toKeepsBlock]
  exact ⟨rfl, rfl⟩

/-! ## O36 -/

/-- The frame `startTransaction` sends. -/
def fieldFrame (dest kind tag : Byte) (payload : List Byte) : Frame :=
  { dest, source := 0, kind, tag, flags := 0, payload }

theorem arbitrate_poll {s : State} (he : s.line.engine = .free) (hp : s.pins.restartAsserted = false) (ho : s.orders = [])
    (hq : s.polls ≠ []) (hl : s.line.lastServed = .relays ∨ oldestQueued s = none) :
    ∃ p ∈ s.polls, (∀ q ∈ s.polls, p.kind.rank ≤ q.kind.rank) ∧ arbitrate s = startPoll p s := by
  obtain ⟨p, hmem, hnext, least⟩ := nextPoll_some hq
  exact ⟨p, hmem, least, (arbitrate_free he hp).trans (arbiterRun_poll _ ho hnext hl)⟩

/-- After a refused entry the arbiter chooses again from the start. -/
theorem arbitrate_refused {s : State} {e : RelayEntry} {x : Code × Byte} (he : s.line.engine = .free)
    (hp : s.pins.restartAsserted = false) (ho : s.orders = []) (hq : oldestQueued s = some e)
    (hl : s.line.lastServed = .polls ∨ nextPoll s = none) (hd : dispatchCheck s e = .error x) :
    arbitrate s = arbitrate (withdrawMove e (refuseEntry x.1 x.2 e s)) := by
  obtain ⟨line, pins⟩ := withdrawn_line s e x.1 x.2
  have shorter := withdrawn_shorter (oldestQueued_mem s hq) x.1 x.2
  rw [arbitrate_free he hp, arbiterRun_refused _ ho hq hl hd, arbitrate_free (by rw [line, he]) (by rw [pins, hp])]
  exact arbiterRun_enough _ _ _ shorter (Nat.lt_succ_self _)

/-- Settles O36, part by part from the arbiter's rules above. -/
theorem arbiterOrder : Obligations.ArbiterOrder := by
  unfold Obligations.ArbiterOrder
  refine ⟨queueOrder_cases, fun _ => rfl, fun s => ⟨arbitrate_idle, fun he hp => ⟨fun o rest h => ?_, fun ho hq hl => ?_,
    fun ho hl e hq => ⟨fun body hd => ?_, fun x hd => ?_⟩, fun ho hq hl => ?_⟩⟩⟩
  case refine_1 => rw [arbitrate_free he hp, arbiterRun_order _ h]
  case refine_2 =>
    have idle : s.line.lastServed = .relays ∨ oldestQueued s = none :=
      hl.imp_right fun h => List.find?_eq_none.mpr fun e he => by simp [h e he]
    obtain ⟨p, hmem, least, run⟩ := arbitrate_poll he hp ho hq idle
    refine ⟨p, hmem, fieldFrame p.station p.kind.kindByte s.line.fieldTag [], least, run, rfl, rfl, rfl, rfl, rfl, ?_, ?_, ?_⟩
    · intro sp h; rw [h]; rfl
    · intro i h; rw [h]; rfl
    · intro sp h; rw [h]; rfl
  case refine_3 =>
    have run : arbitrate s = startRelay e body s :=
      (arbitrate_free he hp).trans (arbiterRun_entry _ ho hq (hl.imp_right nextPoll_none) hd)
    refine ⟨fieldFrame e.dest body.kindByte s.line.fieldTag body.payload, rfl, rfl, rfl, rfl, fun m cls c h => ?_, fun d h => ?_, fun g x b h => ?_⟩
    · subst h; exact ⟨rfl, rfl, run⟩
    · subst h; exact ⟨rfl, rfl, run⟩
    · subst h; exact ⟨rfl, rfl, run⟩
  case refine_4 => exact arbitrate_refused he hp ho hq (hl.imp_right nextPoll_none) hd
  case refine_5 =>
    have none : oldestQueued s = none := List.find?_eq_none.mpr fun e he => by simp [hl e he]
    rw [arbitrate_free he hp, arbiterRun_none _ ho (nextPoll_none hq) none]

end Sys2Proof.Machine
end

section
/-! Ends of transactions, the payloads of answers, and what the TCU makes known (R19, R20, R62, R77, R78). -/

namespace Sys2Proof.Machine

/-! ## Ends of transactions -/

/-- What the owner of a transaction's work does with its outcome. -/
def outcomeTaken (t : Transaction) (answer : Option (List Byte)) (s : State) : State :=
  match t.work with
  | .poll k => pollReport k answer s
  | .order k poster attempt => orderEnd k poster t.station attempt answer s
  | .relay tag => relayEnd tag answer s

theorem endTransaction_eq (t : Transaction) (answer : Option (List Byte)) (s : State) :
    endTransaction t answer s = arbitrate (outcomeTaken t answer (setEngine .free s)) := rfl

/-- Both ways a transaction ends: the outcome is handed on with the line freed, and the arbiter runs. -/
theorem exec_ends {s : State} {t : Transaction} {c : Instr} {answer : Option (List Byte)} (h : Ends s t c answer) :
    exec c s = .next (arbitrate (outcomeTaken t answer (lineFreed answer s))) := by
  cases h with
  | answered f n he hp hw hd hsrc hk hl hst htag =>
    have hears : fieldDeaf s = false := by rw [fieldDeaf, hp, he]; rfl
    have accepted : fieldAccepted f = true := (fieldAccepted_iff f).mpr ⟨hd, hsrc, hk, hl⟩
    have taken : matchAnswer f (setFldRx .hunt s) = endTransaction t (some f.payload) (setFldRx .hunt s) := by
      have engine : (setFldRx .hunt s).line.engine = .awaiting t n := he
      unfold matchAnswer
      rw [engine]
      exact if_pos ⟨hst, htag⟩
    rw [exec_fieldFrame_heard hears, if_pos ⟨hw, rfl, accepted⟩, taken]
    rfl
  | silent n he =>
    show Host.Outcome.next (replyTimerEnd s) = _
    unfold replyTimerEnd
    rw [he]
    rfl

/-! ## The answers of R7 -/

theorem bytes16_word16 (h l : Byte) : bytes16 (word16 h l) = [h, l] := by
  have hh := h.isLt
  have hl := l.isLt
  unfold bytes16
  congr 1
  · apply BitVec.eq_of_toNat_eq
    rw [BitVec.extractLsb'_toNat, Nat.shiftRight_eq_div_pow, word16_toNat]
    omega
  · congr 1
    apply BitVec.eq_of_toNat_eq
    rw [BitVec.extractLsb'_toNat, Nat.shiftRight_eq_div_pow, word16_toNat]
    omega

theorem bytes32_word32 (b3 b2 b1 b0 : Byte) : bytes32 (word32 b3 b2 b1 b0) = [b3, b2, b1, b0] := by
  have h3 := b3.isLt
  have h2 := b2.isLt
  have h1 := b1.isLt
  have h0 := b0.isLt
  have byte : ∀ k (b : Byte), (word32 b3 b2 b1 b0).toNat / 2 ^ k % 2 ^ 8 = b.toNat →
      (word32 b3 b2 b1 b0).extractLsb' k 8 = b := fun k b h => by
    apply BitVec.eq_of_toNat_eq
    rw [BitVec.extractLsb'_toNat, Nat.shiftRight_eq_div_pow, h]
  unfold bytes32
  rw [byte 24 b3, byte 16 b2, byte 8 b1, byte 0 b0]
  all_goals
    rw [word32_toNat]
    omega

theorem readDust_some (l : List Byte) (x : Word16) : readDust l = some x ↔ l = 0 :: (bytes16 x ++ [0]) := by
  constructor
  · intro h
    unfold readDust at h
    split at h
    · split at h
      · rename_i st c1 c0 ft hz
        obtain ⟨rfl, rfl⟩ := hz
        cases h
        rw [bytes16_word16]
        rfl
      · cases h
    · cases h
  · rintro rfl
    show some (word16 _ _) = _
    rw [word16_bytes]

theorem readScale_some (l : List Byte) (v : Word32) : readScale l = some v ↔ l = 0 :: (bytes32 v ++ [0]) := by
  constructor
  · intro h
    unfold readScale at h
    split at h
    · split at h
      · rename_i st t3 t2 t1 t0 ft hz
        obtain ⟨rfl, rfl⟩ := hz
        cases h
        rw [bytes32_word32]
        rfl
      · cases h
    · cases h
  · rintro rfl
    show some (word32 _ _ _ _) = _
    rw [word32_bytes]

theorem readPosition_some (l : List Byte) (p : Position) (flags : Byte) :
    readPosition l = some (p, flags) ↔ l = positionPayload p flags := by
  constructor
  · intro h
    unfold readPosition at h
    split at h
    · split at h
      · rename_i st r3 r2 r1 r0 s1 s0 e1 e0 l1 l0 fl hz
        subst hz
        cases h
        unfold positionPayload
        rw [bytes32_word32, bytes16_word16, bytes16_word16, bytes16_word16]
        rfl
      · cases h
    · cases h
  · rintro rfl
    show some (Position.mk (word32 _ _ _ _) (word16 _ _) (word16 _ _) (word16 _ _), flags) = _
    rw [word32_bytes, word16_bytes, word16_bytes, word16_bytes]

/-- What an answer is read as, where no answer at all reads as nothing. -/
theorem bind_some {α β : Type} {f : α → Option β} {y : α → β → Prop} (h : ∀ a b, f a = some b ↔ y a b) (o : Option α) (b : β) :
    o.bind f = some b ↔ ∃ a, o = some a ∧ y a b := by
  cases o <;> simp [h]

/-- The status of an answer is OK. -/
theorem status_ok (answer : Option (List Byte)) : answer.map statusOf = some .ok ↔ answeredOk answer := by
  unfold answeredOk
  rcases answer with _ | (_ | ⟨b, l⟩)
  · simp
  · simp [statusOf]
  · by_cases h : b = 0
    · simp [statusOf, h]
    · simp only [Option.map_some, statusOf, h, if_false, Option.some.injEq, List.cons.injEq]
      constructor
      · intro k; split at k
        · cases k
        · split at k <;> cases k
      · rintro ⟨_, k, _⟩; exact k.elim

/-! ## Zone claims -/

theorem setZoneOwner_zone (i j : ZoneIx) (o : Option Spout) (s : State) :
    (setZoneOwner i o s).zone j = if j = i then { s.zone i with owner := o } else s.zone j := by
  show (s.zones.entries.set i.val _)[j.val] = _
  rw [Vector.getElem_set]
  by_cases h : j = i
  · rw [if_pos h, if_pos (congrArg Fin.val h.symm)]
  · rw [if_neg h, if_neg fun k => h (Fin.ext k.symm)]
    rfl

theorem releaseZone_zone (sp : Spout) (i j : ZoneIx) (s : State) : (releaseZone sp i s).zone j =
    { s.zone j with owner := if j = i ∧ (s.zone j).owner = some sp then none else (s.zone j).owner } := by
  unfold releaseZone
  split
  · rename_i h
    rw [setZoneOwner_zone]
    by_cases hj : j = i
    · subst hj; rw [if_pos rfl, if_pos ⟨rfl, h⟩]
    · rw [if_neg hj, if_neg fun k => hj k.1]
  · rename_i h
    rw [if_neg]
    rintro ⟨rfl, k⟩
    exact h k

/-- A spout's claim on zone `i` is released, unless it is also zone `k`. -/
theorem releaseUnless_zone (sp : Spout) (i k j : ZoneIx) (s : State) : (if i = k then s else releaseZone sp i s).zone j =
    { s.zone j with owner := if j = i ∧ j ≠ k ∧ (s.zone j).owner = some sp then none else (s.zone j).owner } := by
  split
  · rename_i h
    rw [if_neg]
    rintro ⟨rfl, hk, _⟩
    exact hk h
  · rename_i h
    rw [releaseZone_zone]
    by_cases hj : j = i
    · subst hj; simp [h]
    · simp [hj]

theorem dropTarget_zone (sp : Spout) (j : ZoneIx) (s : State) : (dropTarget sp s).zone j =
    { s.zone j with
      owner := if j = (s.spouts.get sp).target ∧ j ≠ (s.spouts.get sp).current ∧ (s.zone j).owner = some sp then none
        else (s.zone j).owner } := releaseUnless_zone _ _ _ _ _

theorem arrive_zone (sp : Spout) (j : ZoneIx) (s : State) : (arrive sp s).zone j =
    { s.zone j with
      owner := if j = (s.spouts.get sp).current ∧ j ≠ (s.spouts.get sp).target ∧ (s.zone j).owner = some sp then none
        else (s.zone j).owner } := releaseUnless_zone _ _ _ _ _

/-! ## One spout's record and the claims -/

/-- Of the part, only the spout's record, which is `q`, and the owners of zones differ. -/
structure RecordChange (sp : Spout) (s : State) (q : SpoutRec) (t : State) : Prop where
  state : t = (s.withSpouts (s.spouts.set sp q)).withZones t.zones
  limit : t.zones.limit = s.zones.limit
  zones : ∀ j, ∃ o, t.zone j = { s.zone j with owner := o }

theorem Pair.set_set {α : Type} (p : Pair α) (sp : Spout) (x y : α) : (p.set sp x).set sp y = p.set sp y := by
  cases sp <;> rfl

theorem Pair.set_get {α : Type} (p : Pair α) (sp : Spout) : p.set sp (p.get sp) = p := by
  cases sp <;> rfl

namespace RecordChange

variable {sp : Spout} {s t : State} {q : SpoutRec}

theorem refl (sp : Spout) (s : State) : RecordChange sp s (s.spouts.get sp) s :=
  ⟨by rw [Pair.set_get]; rfl, rfl, fun _ => ⟨_, rfl⟩⟩

theorem spouts (h : RecordChange sp s q t) : t.spouts = s.spouts.set sp q := by rw [h.state]; rfl

theorem record (h : RecordChange sp s q t) : t.spouts.get sp = q := by rw [h.spouts, Pair.get_set_self]

theorem freeboard (h : RecordChange sp s q t) : t.freeboard = s.freeboard := by rw [h.state]; rfl

theorem setSpout (h : RecordChange sp s q t) (q' : SpoutRec) : RecordChange sp s q' (setSpout sp q' t) := by
  refine ⟨?_, h.limit, h.zones⟩
  unfold Machine.setSpout
  rw [h.spouts, Pair.set_set]
  nth_rw 1 [h.state]
  rfl

theorem setZoneOwner (h : RecordChange sp s q t) (i : ZoneIx) (o : Option Spout) :
    RecordChange sp s q (setZoneOwner i o t) := by
  refine ⟨?_, h.limit, fun j => ?_⟩
  · unfold Machine.setZoneOwner
    nth_rw 1 [h.state]
    rfl
  · obtain ⟨_, old⟩ := h.zones j
    obtain ⟨p, new⟩ := zone_setOwner t i j o
    exact ⟨p, by rw [new, old]⟩

theorem releaseZone (h : RecordChange sp s q t) (i : ZoneIx) : RecordChange sp s q (releaseZone sp i t) := by
  unfold Machine.releaseZone
  split
  · exact h.setZoneOwner _ _
  · exact h

theorem releaseUnless (h : RecordChange sp s q t) (i k : ZoneIx) :
    RecordChange sp s q (if i = k then t else Machine.releaseZone sp i t) := by
  split
  · exact h
  · exact h.releaseZone _

theorem dropTarget (h : RecordChange sp s q t) : RecordChange sp s { q with target := 0 } (dropTarget sp t) := by
  unfold Machine.dropTarget
  rw [h.record]
  exact (h.releaseUnless _ _).setSpout _

theorem arrive (h : RecordChange sp s q t) : RecordChange sp s
    { q with state := .settled, current := q.target, target := 0, recovery := false, lostCause := none } (arrive sp t) := by
  unfold Machine.arrive
  rw [h.record]
  exact (h.releaseUnless _ _).setSpout _

/-- The overreach test reads of the state only what has not changed. -/
theorem overreachTest_iff (h : RecordChange sp s q t) : overreachTest t sp = true ↔ Deep s q := by
  obtain ⟨o, ho⟩ := h.zones q.current
  unfold overreachTest Deep
  dsimp only
  rw [h.record, ho]
  simp only [Bool.and_eq_true, beq_iff_eq, decide_eq_true_eq, and_assoc]
  refine and_congr_right fun _ => and_congr_right fun hz => and_congr_right fun _ => ?_
  have limit : (effLowerMax t { s.zone q.current with owner := o }).toNat = depthLimit s (s.zone q.current) := by
    unfold effLowerMax depthLimit Zone.holdOf offsetOf
    dsimp only
    rw [if_pos hz, h.freeboard]
    cases (s.zone q.current).hold with
    | none => rfl
    | some x =>
      show (BitVec.ofNat 16 _).toNat = _
      rw [BitVec.toNat_ofNat, Nat.mod_eq_of_lt]
      have := (s.zone q.current).box.lowerMax.isLt
      have := (s.zone q.current).box.lowerMin.isLt
      omega
  rw [limit]

theorem testOverreach (h : RecordChange sp s q t) :
    RecordChange sp s { q with overreach := overreachTest t sp } (testOverreach sp t) := by
  unfold Machine.testOverreach
  rw [h.record]
  exact h.setSpout _

end RecordChange

/-! ## Refusals of a removal, and a record made known -/

/-- Entries refused one after the other: they leave the queue, their places are freed, their answers join in order. -/
theorem refuseEntry_foldl (es : List RelayEntry) (c : Code) (x : Byte) (s : State) :
    es.foldl (fun t e => refuseEntry c x e t) s = refusedAll es c x s := by
  induction es generalizing s with
  | nil => simp [refusedAll, State.withRelayQueue, State.withSport]
  | cons e es ih =>
    rw [List.foldl_cons, ih]
    have queue : (s.relayQueue.filter fun y => y.tag ≠ e.tag).filter (fun y => !(es.any fun z => z.tag == y.tag))
        = s.relayQueue.filter fun y => !((e :: es).any fun z => z.tag == y.tag) := by
      rw [List.filter_filter]
      refine List.filter_congr fun y _ => ?_
      by_cases h : e.tag = y.tag
      · simp [h]
      · simp [h, Ne.symm h]
    have ready : (s.sport.ready ++ [refusalAnswer e.tag c x e.body.kindByte])
          ++ es.map (fun z => refusalAnswer z.tag c x z.body.kindByte)
        = s.sport.ready ++ (e :: es).map fun z => refusalAnswer z.tag c x z.body.kindByte := by simp
    unfold refusedAll
    rw [← queue, ← ready]
    rfl

theorem preempt_refusedAll (p : RelayEntry → Bool) (c : Code) (x : Byte) (s : State) :
    preempt p c x s = refusedAll (s.relayQueue.filter fun e => !e.onLine && p e) c x s := refuseEntry_foldl _ _ _ _

theorem keepsBlock_spouts : KeepsBlock State.spouts :=
  ⟨by constructor <;> intros <;> rfl, fun _ _ => rfl, fun _ _ => rfl⟩

theorem keepsBlock_zones : KeepsBlock State.zones :=
  ⟨by constructor <;> intros <;> rfl, fun _ _ => rfl, fun _ _ => rfl⟩

theorem spoutView_of_spouts {s t : State} {sp : Spout} (h : t.spouts.get sp = s.spouts.get sp) :
    spoutView t sp = spoutView s sp := by
  unfold spoutView
  rw [h]

/-- What the other blocks read of a spout record is as before (log 16). -/
theorem spoutView_eq_iff (s t : State) (sp : Spout) : spoutView s sp = spoutView t sp ↔
    ((s.spouts.get sp).state = .lost ↔ (t.spouts.get sp).state = .lost) ∧
    ((s.spouts.get sp).state = .settled ↔ (t.spouts.get sp).state = .settled) ∧
    (s.spouts.get sp).overreach = (t.spouts.get sp).overreach ∧ (s.spouts.get sp).current = (t.spouts.get sp).current := by
  have beq : ∀ x y k : SpoutState, ((x == k) = (y == k)) ↔ (x = k ↔ y = k) := fun x y k => by
    rw [Bool.eq_iff_iff, beq_iff_eq, beq_iff_eq]
  simp only [spoutView, Prod.mk.injEq, beq]

theorem tellSpout_same {before s : State} {sp : Spout} (h : spoutView before sp = spoutView s sp) :
    tellSpout before sp s = s := if_pos h

/-- A record that changed is told as `recordKnown` says, but for the activation test at the end. -/
theorem tellSpout_known {s t : State} {sp : Spout} {q : SpoutRec} {z : ZoneTable}
    (ht : t = (s.withSpouts (s.spouts.set sp q)).withZones z) (h : ¬ spoutView s sp = spoutView t sp) :
    activationTest (tellSpout s sp t) = recordKnown sp q z s := by
  have get : t.spouts.get sp = q := by rw [ht]; exact Pair.get_set_self _ _ _
  have lost : enteredLost s t sp = true ↔ (s.spouts.get sp).state ≠ .lost ∧ q.state = .lost := by
    simp [enteredLost, get]
  have deep : (!(s.spouts.get sp).overreach && (t.spouts.get sp).overreach) = true ↔
      q.overreach = true ∧ (s.spouts.get sp).overreach = false := by
    rw [get, Bool.and_eq_true, Bool.not_eq_true', and_comm]
  have refused : preempt (isMoveOf sp) .spoutLost sp.byte (postStop sp t) =
      refusedAll (s.relayQueue.filter fun e => !e.onLine && isMoveOf sp e) .spoutLost sp.byte
        (((s.withSpouts (s.spouts.set sp q)).withZones z).withOrders (match stationOf s .spoutDrive sp with
          | some st => queueOrder { station := st, kind := .stop sp, poster := .tcu } s.orders
          | none => s.orders)) := by
    rw [preempt_refusedAll, postStop_keeps keepsPlan_relayQueue, ht]
    unfold postStop
    show refusedAll _ _ _ (match stationOf s .spoutDrive sp with | some _ => _ | none => _) = _
    cases stationOf s .spoutDrive sp <;> rfl
  rw [spoutView_eq_iff, get] at h
  unfold recordKnown
  rw [tellSpout, if_neg (by rw [spoutView_eq_iff, get]; exact h)]
  dsimp only
  rw [if_neg h, refused, blocked_eq]
  simp only [lost, deep]
  rw [ht] <;> rfl

/-- The TCU makes one spout's changed record known. -/
theorem RecordChange.known {sp : Spout} {s t : State} {q : SpoutRec} (h : RecordChange sp s q t) :
    tcuKnown s t = recordKnown sp q t.zones s := by
  have other : ∀ sq, sq ≠ sp → spoutView s sq = spoutView t sq := fun sq hsq =>
    (spoutView_of_spouts (by rw [h.spouts, Pair.get_set_other _ _ _ _ hsq])).symm
  have told : tellSpout s .b (tellSpout s .a t) = tellSpout s sp t := by
    cases sp with
    | a =>
      exact tellSpout_same ((other .b (by decide)).trans
        (spoutView_of_spouts (by rw [tellSpout_keeps keepsBlock_spouts])).symm)
    | b => rw [tellSpout_same (other .a (by decide))]
  unfold tcuKnown
  rw [told]
  by_cases same : spoutView s sp = spoutView t sp
  · have all : ∀ sq, spoutView s sq = spoutView t sq := fun sq => by
      by_cases hsq : sq = sp
      · rw [hsq, same]
      · exact other sq hsq
    rw [tellSpout_same same]
    dsimp only
    rw [if_pos ⟨all .a, all .b⟩]
    rw [spoutView_eq_iff, h.record] at same
    exact h.state.trans (if_pos same).symm
  · dsimp only
    rw [if_neg, tellSpout_known h.state same]
    rintro ⟨ha, hb⟩
    cases sp with
    | a => exact same ha
    | b => exact same hb

end Sys2Proof.Machine
end

section
/-! The end of a position poll (R70 to R76). -/

namespace Sys2Proof.Machine

/-! ## Zones a position is compared with -/

theorem inside_iff (p : Position) (z : Zone) : inside p z = true ↔ Within p z.box := by
  simp [inside, Within, and_assoc]

theorem searchable_iff (s : State) (sp : Spout) (p : Position) (i : ZoneIx) :
    searchable s sp p i = true ↔ Places s sp p i := by
  simp [searchable, Places, inside_iff, and_assoc]

/-- A search in ascending index finds the lowest index that passes. -/
theorem finRange_find?_least {n : Nat} {P : Fin n → Bool} {i : Fin n} (hi : P i = true) (least : ∀ j, j < i → P j ≠ true) :
    (List.finRange n).find? P = some i := by
  rw [List.find?_eq_some_iff_getElem]
  refine ⟨hi, i.val, by rw [List.length_finRange]; exact i.isLt, List.getElem_finRange .., fun j hj => ?_⟩
  rw [List.getElem_finRange, Bool.not_eq_true', Bool.eq_false_iff]
  exact least _ hj

/-- The search finds the lowest zone the spout can be placed in. -/
theorem searchZone_least {s : State} {sp : Spout} {p : Position} {i : ZoneIx} (hi : Places s sp p i)
    (least : ∀ j, j < i → ¬ Places s sp p j) : searchZone s sp p = some i := by
  exact finRange_find?_least ((searchable_iff s sp p i).mpr hi) fun j hj => by
    rw [ne_eq, searchable_iff]; exact least j hj

theorem searchZone_none {s : State} {sp : Spout} {p : Position} (h : ∀ i, ¬ Places s sp p i) : searchZone s sp p = none :=
  List.find?_eq_none.mpr fun i _ => by rw [searchable_iff]; exact h i

/-! ## A valid answer -/

/-- The record with what every valid answer writes (R70). -/
def heardRecord (p : Position) (flags : Byte) (r : SpoutRec) : SpoutRec :=
  { r with position := p, posValid := true, driveFlags := flags, missed := 0 }

/-- The state a valid answer's position is judged in. -/
def heardSpout (sp : Spout) (p : Position) (flags : Byte) (s : State) : State :=
  setSpout sp (heardRecord p flags (s.spouts.get sp)) s

section
variable {s : State} {sp : Spout} {p : Position} {flags : Byte}

theorem heardSpout_change : RecordChange sp s (heardRecord p flags (s.spouts.get sp)) (heardSpout sp p flags s) :=
  (RecordChange.refl sp s).setSpout _

/-- A judged position is made known, with the overreach test's value. -/
theorem positionAnswer_known {q : SpoutRec} {u : State} (hu : placeSpout sp p (heardSpout sp p flags s) = u)
    (h : RecordChange sp s q u) : ∃ deep : Bool, (deep = true ↔ Deep s q) ∧
      positionAnswer sp p flags s = recordKnown sp { q with overreach := deep } u.zones s :=
  ⟨overreachTest u sp, h.overreachTest_iff, by subst hu; exact h.testOverreach.known⟩

/-! ### By the spout's state -/

theorem heardSpout_get : (heardSpout sp p flags s).spouts.get sp = heardRecord p flags (s.spouts.get sp) :=
  Pair.get_set_self _ _ _

theorem placeSpout_unknown (h : (s.spouts.get sp).state = .unknown) :
    ∃ q u, placeSpout sp p (heardSpout sp p flags s) = u ∧ RecordChange sp s q u ∧
      (∀ i, Places s sp p i → (∀ j, j < i → ¬ Places s sp p j) →
        q = { heardRecord p flags (s.spouts.get sp) with state := .settled, current := i } ∧
        ∀ j, u.zone j = if j = i then { s.zone i with owner := some sp } else s.zone j) ∧
      ((∀ i, ¬ Places s sp p i) →
        q = { heardRecord p flags (s.spouts.get sp) with state := .lost, recovery := false, lostCause := some .noZone } ∧
        u.zones = s.zones) := by
  have state : (heardRecord p flags (s.spouts.get sp)).state = .unknown := h
  have place : placeSpout sp p (heardSpout sp p flags s) = match searchZone s sp p with
      | some i => setSpout sp { heardRecord p flags (s.spouts.get sp) with state := .settled, current := i }
          (claimZone sp i (heardSpout sp p flags s))
      | none => becomeLost sp .noZone (heardSpout sp p flags s) := by
    unfold placeSpout
    dsimp only
    rw [heardSpout_get, state]
    rfl
  rw [place]
  cases hz : searchZone s sp p with
  | some i =>
    refine ⟨_, _, rfl, (heardSpout_change.setZoneOwner _ _).setSpout _, fun k hk least => ?_, fun none => ?_⟩
    · rw [searchZone_least hk least] at hz
      obtain rfl := Option.some.inj hz
      exact ⟨rfl, fun j => setZoneOwner_zone _ _ _ _⟩
    · rw [searchZone_none none] at hz
      cases hz
  | none =>
    refine ⟨_, _, rfl, heardSpout_change.setSpout _, fun k hk least => ?_, fun _ => ⟨?_, rfl⟩⟩
    · rw [searchZone_least hk least] at hz
      cases hz
    · rw [heardSpout_get]

theorem placeSpout_settled (h : (s.spouts.get sp).state = .settled) :
    ∃ q u, placeSpout sp p (heardSpout sp p flags s) = u ∧ RecordChange sp s q u ∧ u.zones = s.zones ∧
      (Within p (s.zone (s.spouts.get sp).current).box → q = heardRecord p flags (s.spouts.get sp)) ∧
      (¬ Within p (s.zone (s.spouts.get sp).current).box →
        q = { heardRecord p flags (s.spouts.get sp) with state := .lost, recovery := false, lostCause := some .breach }) := by
  have state : (heardRecord p flags (s.spouts.get sp)).state = .settled := h
  have place : placeSpout sp p (heardSpout sp p flags s) =
      if inside p (s.zone (s.spouts.get sp).current) then heardSpout sp p flags s
      else becomeLost sp .breach (heardSpout sp p flags s) := by
    unfold placeSpout
    dsimp only
    rw [heardSpout_get, state]
    rfl
  rw [place]
  by_cases hw : Within p (s.zone (s.spouts.get sp).current).box
  · rw [if_pos ((inside_iff _ _).mpr hw)]
    exact ⟨_, _, rfl, heardSpout_change, rfl, fun _ => rfl, fun k => absurd hw k⟩
  · rw [if_neg (mt (inside_iff _ _).mp hw)]
    exact ⟨_, _, rfl, heardSpout_change.setSpout _, rfl, fun k => absurd k hw, fun _ => by rw [heardSpout_get]⟩

/-- A MOVING spout arrives, travels on, or is LOST outside its two zones (R73, R74). -/
theorem placeSpout_moving (h : (s.spouts.get sp).state = .moving) :
    ∃ q u, placeSpout sp p (heardSpout sp p flags s) = u ∧ RecordChange sp s q u ∧
      (Within p (s.zone (s.spouts.get sp).target).box →
        q = { heardRecord p flags (s.spouts.get sp) with
          state := .settled, current := (s.spouts.get sp).target, target := 0, recovery := false, lostCause := none } ∧
        ∀ j, u.zone j = { s.zone j with
          owner := if j = (s.spouts.get sp).current ∧ j ≠ (s.spouts.get sp).target ∧ (s.zone j).owner = some sp then none
            else (s.zone j).owner }) ∧
      (¬ Within p (s.zone (s.spouts.get sp).target).box →
        ((s.spouts.get sp).recovery = true ∨ Within p (s.zone (s.spouts.get sp).current).box) →
        q = heardRecord p flags (s.spouts.get sp) ∧ u.zones = s.zones) ∧
      (¬ Within p (s.zone (s.spouts.get sp).target).box → (s.spouts.get sp).recovery = false →
        ¬ Within p (s.zone (s.spouts.get sp).current).box →
        q = { heardRecord p flags (s.spouts.get sp) with
          state := .lost, target := 0, recovery := false, lostCause := some .breach } ∧
        ∀ j, u.zone j = { s.zone j with
          owner := if j = (s.spouts.get sp).target ∧ j ≠ (s.spouts.get sp).current ∧ (s.zone j).owner = some sp then none
            else (s.zone j).owner }) := by
  have state : (heardRecord p flags (s.spouts.get sp)).state = .moving := h
  have place : placeSpout sp p (heardSpout sp p flags s) =
      if inside p (s.zone (s.spouts.get sp).target) then arrive sp (heardSpout sp p flags s)
      else if (s.spouts.get sp).recovery then heardSpout sp p flags s
      else if inside p (s.zone (s.spouts.get sp).current) then heardSpout sp p flags s
      else becomeLost sp .breach (dropTarget sp (heardSpout sp p flags s)) := by
    unfold placeSpout
    dsimp only
    rw [heardSpout_get, state]
    rfl
  rw [place]
  by_cases ht : Within p (s.zone (s.spouts.get sp).target).box
  · rw [if_pos ((inside_iff _ _).mpr ht)]
    refine ⟨_, _, rfl, heardSpout_change.arrive, fun _ => ⟨rfl, fun j => ?_⟩, fun k => absurd ht k, fun k => absurd ht k⟩
    rw [arrive_zone, heardSpout_get]
    rfl
  · rw [if_neg (mt (inside_iff _ _).mp ht)]
    by_cases hc : (s.spouts.get sp).recovery = true ∨ Within p (s.zone (s.spouts.get sp).current).box
    · have stays : (if (s.spouts.get sp).recovery = true then heardSpout sp p flags s
          else if inside p (s.zone (s.spouts.get sp).current) then heardSpout sp p flags s
          else becomeLost sp .breach (dropTarget sp (heardSpout sp p flags s))) = heardSpout sp p flags s := by
        split
        · rfl
        · rename_i hr
          exact if_pos ((inside_iff _ _).mpr (hc.resolve_left hr))
      rw [stays]
      exact ⟨_, _, rfl, heardSpout_change, fun k => absurd k ht, fun _ _ => ⟨rfl, rfl⟩, fun _ hr hn =>
        absurd hc (by simp [hr, hn])⟩
    · obtain ⟨hr, hn⟩ := not_or.mp hc
      rw [if_neg hr, if_neg (mt (inside_iff _ _).mp hn)]
      have dropped := (heardSpout_change (s := s) (sp := sp) (p := p) (flags := flags)).dropTarget
      refine ⟨_, _, rfl, dropped.setSpout _, fun k => absurd k ht, fun _ k => absurd k hc, fun _ _ _ => ⟨?_, fun j => ?_⟩⟩
      · rw [dropped.record]
      · refine (dropTarget_zone sp j _).trans ?_
        rw [heardSpout_get]
        rfl

theorem placeSpout_lost (h : (s.spouts.get sp).state = .lost) :
    ∃ q u, placeSpout sp p (heardSpout sp p flags s) = u ∧ RecordChange sp s q u ∧ u.zones = s.zones ∧
      ((s.spouts.get sp).current ≠ 0 → Within p (s.zone (s.spouts.get sp).current).box →
        q = { heardRecord p flags (s.spouts.get sp) with state := .settled, lostCause := none }) ∧
      ((s.spouts.get sp).current = 0 ∨ ¬ Within p (s.zone (s.spouts.get sp).current).box →
        q = heardRecord p flags (s.spouts.get sp)) := by
  have state : (heardRecord p flags (s.spouts.get sp)).state = .lost := h
  have place : placeSpout sp p (heardSpout sp p flags s) =
      if (s.spouts.get sp).current ≠ 0 ∧ inside p (s.zone (s.spouts.get sp).current) then
        setSpout sp { heardRecord p flags (s.spouts.get sp) with state := .settled, lostCause := none }
          (heardSpout sp p flags s)
      else heardSpout sp p flags s := by
    unfold placeSpout
    dsimp only
    rw [heardSpout_get, state]
    rfl
  rw [place]
  by_cases hw : (s.spouts.get sp).current ≠ 0 ∧ Within p (s.zone (s.spouts.get sp).current).box
  · rw [if_pos ⟨hw.1, (inside_iff _ _).mpr hw.2⟩]
    exact ⟨_, _, rfl, heardSpout_change.setSpout _, rfl, fun _ _ => rfl, fun k => absurd hw (by tauto)⟩
  · rw [if_neg (by rwa [inside_iff])]
    exact ⟨_, _, rfl, heardSpout_change, rfl, fun hc k => absurd ⟨hc, k⟩ hw, fun _ => rfl⟩

end

/-! ## No valid answer -/

/-- A record whose view stays is only written. -/
theorem RecordChange.unseen {sp : Spout} {s t : State} {q : SpoutRec} (h : RecordChange sp s q t)
    (same : spoutView s sp = spoutView t sp) : recordKnown sp q t.zones s = t := by
  rw [spoutView_eq_iff, h.record] at same
  exact (if_pos same).trans h.state.symm

section
variable {s : State} {sp : Spout}

theorem missedPoll_counted (h : (s.spouts.get sp).missed < 2 ∨ (s.spouts.get sp).state = .lost) : missedPoll sp s =
    recordKnown sp { s.spouts.get sp with missed := min 3 ((s.spouts.get sp).missed + 1) } s.zones s := by
  have count : (if 3 ≤ (s.spouts.get sp).missed then 3 else (s.spouts.get sp).missed + 1)
      = min 3 ((s.spouts.get sp).missed + 1) := by split <;> omega
  have change := (RecordChange.refl sp s).setSpout { s.spouts.get sp with missed := min 3 ((s.spouts.get sp).missed + 1) }
  unfold missedPoll
  dsimp only
  rw [count, if_neg]
  · refine (change.unseen ?_).symm
    rw [spoutView_eq_iff, change.record]
    exact ⟨Iff.rfl, Iff.rfl, rfl, rfl⟩
  · rintro ⟨h3, hl⟩
    exact h.elim (fun k => by omega) hl

/-- The third missed poll: a spout that is not LOST becomes LOST with cause STALE (R76). -/
theorem missedPoll_stale (h : 2 ≤ (s.spouts.get sp).missed) (hl : (s.spouts.get sp).state ≠ .lost) :
    ∃ z : ZoneTable, missedPoll sp s = recordKnown sp { s.spouts.get sp with
        state := .lost, missed := 3, recovery := false, lostCause := some .stale, overreach := false,
        target := if (s.spouts.get sp).state = .moving then 0 else (s.spouts.get sp).target } z s ∧
      z.limit = s.zones.limit ∧
      ∀ j : ZoneIx, z.entries[j] = { s.zone j with
        owner := if (s.spouts.get sp).state = .moving ∧ j = (s.spouts.get sp).target ∧ j ≠ (s.spouts.get sp).current
            ∧ (s.zone j).owner = some sp then none else (s.zone j).owner } := by
  have counted := (RecordChange.refl sp s).setSpout { s.spouts.get sp with missed := 3 }
  have lost : missedPoll sp s = tcuKnown s (testOverreach sp (becomeLost sp .stale
      (if (s.spouts.get sp).state = .moving then dropTarget sp (setSpout sp { s.spouts.get sp with missed := 3 } s)
        else setSpout sp { s.spouts.get sp with missed := 3 } s))) := by
    have count : (if 3 ≤ (s.spouts.get sp).missed then 3 else (s.spouts.get sp).missed + 1) = 3 := by split <;> omega
    unfold missedPoll
    dsimp only
    rw [count, if_pos ⟨rfl, hl⟩]
  have notDeep : ∀ {q : SpoutRec} {u : State}, RecordChange sp s q u → q.state = .lost → overreachTest u sp = false :=
    fun hu hq => Bool.eq_false_iff.mpr fun k => by
      have := (hu.overreachTest_iff.mp k).1
      rw [hq] at this
      cases this
  rw [lost]
  by_cases hm : (s.spouts.get sp).state = .moving
  · have gone := counted.dropTarget.setSpout
      { s.spouts.get sp with missed := 3, target := 0, state := .lost, recovery := false, lostCause := some .stale }
    rw [if_pos hm, becomeLost, counted.dropTarget.record, gone.testOverreach.known, notDeep gone rfl]
    refine ⟨_, by rw [if_pos hm]; rfl, gone.limit, fun j => ?_⟩
    refine (dropTarget_zone sp j _).trans ?_
    rw [counted.record]
    simp only [hm, true_and]
    rfl
  · have gone := counted.setSpout { s.spouts.get sp with missed := 3, state := .lost, recovery := false, lostCause := some .stale }
    rw [if_neg hm, becomeLost, counted.record, gone.testOverreach.known, notDeep gone rfl]
    refine ⟨_, by rw [if_neg hm]; rfl, gone.limit, fun j => ?_⟩
    rw [if_neg fun k => hm k.1]
    rfl

end

/-! ## O41 -/

/-- What O41 says of a valid answer, of the spout's record `q` and the zone table `z` that follow. -/
def Judged (s : State) (sp : Spout) (p : Position) (flags : Byte) (q : SpoutRec) (z : ZoneTable) : Prop :=
  let r := s.spouts.get sp
  let heardOf := fun (st : SpoutState) (cur tgt : ZoneIx) (rec : Bool) (cause : Option LostCause) =>
    q = { state := st, current := cur, target := tgt, recovery := rec, position := p, posValid := true,
          driveFlags := flags, missed := 0, lostCause := cause, overreach := q.overreach }
  (q.overreach = true ↔ Deep s q) ∧
  (r.state = .unknown → (∀ i, Places s sp p i → (∀ j, j < i → ¬ Places s sp p j) →
      heardOf .settled i r.target r.recovery r.lostCause ∧
      ∀ j : ZoneIx, z.entries[j] = if j = i then { s.zone i with owner := some sp } else s.zone j) ∧
    ((∀ i, ¬ Places s sp p i) → heardOf .lost r.current r.target false (some .noZone) ∧ z = s.zones)) ∧
  (r.state = .settled → z = s.zones ∧
    (Within p (s.zone r.current).box → heardOf .settled r.current r.target r.recovery r.lostCause) ∧
    (¬ Within p (s.zone r.current).box → heardOf .lost r.current r.target false (some .breach))) ∧
  (r.state = .moving →
    (Within p (s.zone r.target).box → heardOf .settled r.target 0 false none ∧
      ∀ j : ZoneIx, z.entries[j] = { s.zone j with
        owner := if j = r.current ∧ j ≠ r.target ∧ (s.zone j).owner = some sp then none else (s.zone j).owner }) ∧
    (¬ Within p (s.zone r.target).box → (r.recovery = true ∨ Within p (s.zone r.current).box) →
      heardOf .moving r.current r.target r.recovery r.lostCause ∧ z = s.zones) ∧
    (¬ Within p (s.zone r.target).box → r.recovery = false → ¬ Within p (s.zone r.current).box →
      heardOf .lost r.current 0 false (some .breach) ∧
      ∀ j : ZoneIx, z.entries[j] = { s.zone j with
        owner := if j = r.target ∧ j ≠ r.current ∧ (s.zone j).owner = some sp then none else (s.zone j).owner })) ∧
  (r.state = .lost → z = s.zones ∧
    (r.current ≠ 0 → Within p (s.zone r.current).box → heardOf .settled r.current r.target r.recovery none) ∧
    (r.current = 0 ∨ ¬ Within p (s.zone r.current).box →
      heardOf .lost r.current r.target r.recovery r.lostCause))

/-- A valid answer is judged by the spout's state and made known. -/
theorem positionAnswer_judged (s : State) (sp : Spout) (p : Position) (flags : Byte) : ∃ (q : SpoutRec) (z : ZoneTable),
    positionAnswer sp p flags s = recordKnown sp q z s ∧ z.limit = s.zones.limit ∧ Judged s sp p flags q z := by
  unfold Judged
  dsimp only
  cases h : (s.spouts.get sp).state with
  | unknown =>
    obtain ⟨q, u, place, change, found, lost⟩ := placeSpout_unknown (p := p) (flags := flags) h
    obtain ⟨deep, test, known⟩ := positionAnswer_known place change
    refine ⟨_, _, known, change.limit, test, fun _ => ⟨fun i hi least => ?_, fun none => ?_⟩, ?_, ?_, ?_⟩
    · obtain ⟨hq, hz⟩ := found i hi least
      subst hq
      exact ⟨rfl, hz⟩
    · obtain ⟨hq, hz⟩ := lost none
      subst hq
      exact ⟨rfl, hz⟩
    all_goals exact fun k => nomatch k
  | settled =>
    obtain ⟨q, u, place, change, zones, within, breach⟩ := placeSpout_settled (p := p) (flags := flags) h
    obtain ⟨deep, test, known⟩ := positionAnswer_known place change
    refine ⟨_, _, known, change.limit, test, ?_, fun _ => ⟨zones, fun hw => ?_, fun hw => ?_⟩, ?_, ?_⟩
    · exact fun k => nomatch k
    · rw [within hw]
      unfold heardRecord
      rw [h]
    · rw [breach hw]
      rfl
    all_goals exact fun k => nomatch k
  | moving =>
    obtain ⟨q, u, place, change, arrived, travels, breach⟩ := placeSpout_moving (p := p) (flags := flags) h
    obtain ⟨deep, test, known⟩ := positionAnswer_known place change
    refine ⟨_, _, known, change.limit, test, ?_, ?_, fun _ => ⟨fun ht => ?_, fun ht hc => ?_, fun ht hr hc => ?_⟩, ?_⟩
    · exact fun k => nomatch k
    · exact fun k => nomatch k
    · obtain ⟨hq, hz⟩ := arrived ht
      subst hq
      exact ⟨rfl, hz⟩
    · obtain ⟨hq, hz⟩ := travels ht hc
      subst hq
      refine ⟨?_, hz⟩
      unfold heardRecord
      rw [h]
    · obtain ⟨hq, hz⟩ := breach ht hr hc
      subst hq
      exact ⟨rfl, hz⟩
    · exact fun k => nomatch k
  | lost =>
    obtain ⟨q, u, place, change, zones, within, stays⟩ := placeSpout_lost (p := p) (flags := flags) h
    obtain ⟨deep, test, known⟩ := positionAnswer_known place change
    refine ⟨_, _, known, change.limit, test, ?_, ?_, ?_, fun _ => ⟨zones, fun hc hw => ?_, fun hn => ?_⟩⟩
    · exact fun k => nomatch k
    · exact fun k => nomatch k
    · exact fun k => nomatch k
    · rw [within hc hw]
      rfl
    · rw [stays hn]
      unfold heardRecord
      rw [h]

/-- Settles O41: a valid answer is `Judged`; without one the poll counts as missed. -/
theorem positionPollEnds : Obligations.PositionPollEnds := by
  unfold Obligations.PositionPollEnds
  intro s c t answer sp ends work
  dsimp only
  have run : exec c s = .next (arbitrate (pollReport (.position sp) answer (lineFreed answer s))) := by
    rw [exec_ends ends, outcomeTaken, work]
  cases read : answer.bind readPosition with
  | some x =>
    obtain ⟨l, rfl, hl⟩ := (bind_some (fun l (x : Position × Byte) => readPosition_some l x.1 x.2) answer x).mp read
    obtain ⟨q, z, known, limit, judged⟩ := positionAnswer_judged (lineFreed (some l) s) sp x.1 x.2
    refine ⟨q, z, ?_, limit, fun p flags h => ?_, fun h => absurd (congrArg some hl) (h x.1 x.2)⟩
    · rw [run, pollReport, read]
      exact congrArg _ (congrArg _ known)
    · have same := (readPosition_some l p flags).mpr (Option.some.inj h)
      rw [show readPosition l = some x from read] at same
      obtain rfl := Option.some.inj same
      exact judged
  | none =>
    have missed : ∀ p flags, answer ≠ some (positionPayload p flags) := fun p flags h => by
      rw [h, Option.bind_some, (readPosition_some _ p flags).mpr rfl] at read
      cases read
    have report : pollReport (.position sp) answer (lineFreed answer s) = missedPoll sp (lineFreed answer s) := by
      rw [pollReport, read]
    rw [run, report]
    have spouts : (lineFreed answer s).spouts = s.spouts := by cases answer <;> rfl
    have zones : (lineFreed answer s).zones = s.zones := by cases answer <;> rfl
    by_cases h : (s.spouts.get sp).missed < 2 ∨ (s.spouts.get sp).state = .lost
    · have counted := missedPoll_counted (s := lineFreed answer s) (sp := sp) (by rw [spouts]; exact h)
      rw [spouts, zones] at counted
      refine ⟨_, _, by rw [counted], rfl, fun p flags k => absurd k (missed p flags), fun _ => ⟨fun _ => ⟨rfl, rfl⟩, ?_⟩⟩
      intro h2 hl
      exact absurd h (by rintro (k | k); exacts [by omega, hl k])
    · obtain ⟨h2, hl⟩ := not_or.mp h
      obtain ⟨z, stale, limit, entries⟩ := missedPoll_stale (s := lineFreed answer s) (sp := sp)
        (by rw [spouts]; omega) (by rw [spouts]; exact hl)
      simp only [State.zone, spouts, zones] at stale limit entries
      exact ⟨_, _, by rw [stale], limit, fun p flags k => absurd k (missed p flags), fun _ =>
        ⟨fun k => absurd k h, fun _ _ => ⟨rfl, entries⟩⟩⟩

end Sys2Proof.Machine
end

section
/-! The end of a relay's transaction (R44 to R46, R69, R105). -/

namespace Sys2Proof.Machine

/-! ## Answers only join -/

/-- No block takes a ready answer away: answers join behind the ones that wait. -/
theorem BlockWork.ready_prefix {s t : State} (h : BlockWork s t) : s.sport.ready <+: t.sport.ready := by
  induction h with
  | refl s => exact List.prefix_rfl
  | trans _ _ ih jh => exact ih.trans jh
  | inner h => rw [h.sport]
  | answer a _ => exact List.prefix_append _ _
  | preempt s p c x => rw [preempt_refusedAll]; exact List.prefix_append _ _
  | due s p => unfold pollDue; split <;> exact List.prefix_rfl
  | countDone s => rw [countDoneStep, updateOpenBill_keeps (k := State.sport) (by constructor <;> intros <;> rfl)]
  | addHold s h d => rw [updateOpenBill_keeps (k := State.sport) (by constructor <;> intros <;> rfl)]
  | addUnplaced s d => rw [updateOpenBill_keeps (k := State.sport) (by constructor <;> intros <;> rfl)]
  | _ => exact List.prefix_rfl

/-! ## An acceptance undone -/

theorem undoMove_idle {s : State} {sp : Spout} {b : Byte}
    (h : ¬ ((s.spouts.get sp).state = .moving ∧ (s.spouts.get sp).target.val = b.toNat)) : undoMove sp b s = s := if_neg h

/-- The record of a spout whose acceptance is undone, but for the overreach flag (R69). -/
def undoneRecord (r : SpoutRec) : SpoutRec :=
  { r with state := if r.recovery then .lost else .settled, target := 0, recovery := false }

/-- Where the spout is MOVING to this target, its record and the claims are undone and made known. -/
theorem undoMove_known {s : State} {sp : Spout} {b : Byte} (hm : (s.spouts.get sp).state = .moving)
    (ht : (s.spouts.get sp).target.val = b.toNat) : ∃ (deep : Bool) (t : State),
    undoMove sp b s = tcuKnown s t ∧ RecordChange sp s { undoneRecord (s.spouts.get sp) with overreach := deep } t ∧
      (deep = true ↔ Deep s { undoneRecord (s.spouts.get sp) with overreach := deep }) ∧
      ∀ i, t.zone i = { s.zone i with
        owner := if i = (s.spouts.get sp).target ∧ i ≠ (s.spouts.get sp).current ∧ (s.zone i).owner = some sp then none
          else (s.zone i).owner } := by
  have dropped := (RecordChange.refl sp s).dropTarget
  have undone := dropped.setSpout (undoneRecord (s.spouts.get sp))
  refine ⟨_, _, ?_, undone.testOverreach, undone.overreachTest_iff, fun i => dropTarget_zone sp i s⟩
  unfold undoMove
  dsimp only
  rw [if_pos ⟨hm, ht⟩, dropped.record]
  rfl

theorem undoMove_spouts {s : State} {sp : Spout} {b : Byte} (hm : (s.spouts.get sp).state = .moving)
    (ht : (s.spouts.get sp).target.val = b.toNat) : ∃ deep : Bool,
      (undoMove sp b s).spouts = s.spouts.set sp { undoneRecord (s.spouts.get sp) with overreach := deep } ∧
      (deep = true ↔ Deep s ((undoMove sp b s).spouts.get sp)) ∧
      ∀ i, (undoMove sp b s).zone i = { s.zone i with
        owner := if i = (s.spouts.get sp).target ∧ i ≠ (s.spouts.get sp).current ∧ (s.zone i).owner = some sp then none
          else (s.zone i).owner } := by
  obtain ⟨deep, t, known, change, test, zones⟩ := undoMove_known hm ht
  have spouts : (undoMove sp b s).spouts = s.spouts.set sp { undoneRecord (s.spouts.get sp) with overreach := deep } := by
    rw [known, tcuKnown_keeps keepsBlock_spouts, change.spouts]
  refine ⟨deep, spouts, ?_, fun i => ?_⟩
  · rw [spouts, Pair.get_set_self]
    exact test
  · have kept : (undoMove sp b s).zones = t.zones := by rw [known, tcuKnown_keeps keepsBlock_zones]
    unfold State.zone
    rw [kept]
    exact zones i

/-! ## A relayed setting ends -/

section
variable {k : State → κ} (hk : KeepsPlan k) (s : State)
include hk

theorem confirmGate_keeps (sp : Spout) (x : Setting) : k (confirmGate sp x s) =
    k (setGate sp { state := .rest (confirmedRest x), confirmed := x } s) := activationTest_keeps hk _

theorem relayGateFailed_keeps {sp : Spout} {d : Setting} {prior : GateRest}
    (h : (s.gates.get sp).state = .changing d (.relay prior)) :
    k (relayGateFailed sp s) = k (setGate sp { s.gates.get sp with state := .rest prior } s) := by
  unfold relayGateFailed
  rw [h]
  exact activationTest_keeps hk _

/-- Of the readings the activation test keeps, a relay's end changes none but the gate's record. -/
theorem relayGateFailed_other (sp : Spout) (hg : ∀ r, k (setGate sp r s) = k s) : k (relayGateFailed sp s) = k s := by
  unfold relayGateFailed
  split
  · rw [activationTest_keeps hk, hg]
  · rfl

end

theorem keepsPlan_gates : KeepsPlan State.gates := by constructor <;> intros <;> rfl

/-! ## What every outcome of a relay leaves -/

section
variable (body : RelayBody) (good : Bool) (s : State)

theorem relayOutcome_work : BlockWork s (relayOutcome body good s) := by
  cases body with
  | move m cls c => cases good; exacts [undoMove_work s _ _, .refl s]
  | gate g x b => cases good; exacts [relayGateFailed_work s _, confirmGate_work s _ _]
  | plain d => exact .refl s

theorem relayOutcome_queue : (relayOutcome body good s).relayQueue.Sublist s.relayQueue := by
  cases body with
  | move m cls c => cases good; exacts [undoMove_queue _ _ _, .refl _]
  | gate g x b =>
    cases good
    · have same := relayGateFailed_other keepsPlan_relayQueue s g.spout fun _ => rfl
      exact same ▸ .refl _
    · have same := confirmGate_keeps keepsPlan_relayQueue s g.spout x
      exact same ▸ .refl _
  | plain d => exact .refl _

theorem relayOutcome_line : (relayOutcome body good s).line = s.line := by
  have line := keepsTravel_line
  cases body with
  | move m cls c => cases good; exacts [undoMove_keeps line _ _ _, rfl]
  | gate g x b =>
    cases good
    · exact relayGateFailed_other line.toKeepsPlan s g.spout fun _ => rfl
    · exact confirmGate_keeps line.toKeepsPlan s g.spout x
  | plain d => rfl

end

/-! ## O39 -/

/-- The state in which the owning block takes a relay's outcome: the line freed, the entry answered. -/
def relayAnswered (e : RelayEntry) (answer : Option (List Byte)) (s : State) : State :=
  answerEntry e (relayAnswer e answer) (lineFreed answer s)

theorem relayAnswered_kept (e : RelayEntry) (answer : Option (List Byte)) (s : State) :
    let v := relayAnswered e answer s
    v.line = { s.line with engine := .free } ∧ v.spouts = s.spouts ∧ v.zones = s.zones ∧ v.gates = s.gates ∧
      v.plan = s.plan ∧ v.orders = s.orders ∧ v.notices = s.notices ∧ v.freeboard = s.freeboard ∧
      v.sport.ready = s.sport.ready ++ [relayAnswer e answer] ∧
      v.relayQueue = s.relayQueue.filter fun x => x.tag ≠ e.tag := by
  cases answer <;> exact ⟨rfl, rfl, rfl, rfl, rfl, rfl, rfl, rfl, rfl, rfl⟩

theorem exec_relayEnds {s : State} {c : Instr} {t : Transaction} {answer : Option (List Byte)} {tag : Byte} {e : RelayEntry}
    (ends : Ends s t c answer) (work : t.work = .relay tag) (found : s.relayQueue.find? (fun x => x.tag == tag) = some e) :
    exec c s = .next (arbitrate
      (relayOutcome e.body (answer.map statusOf == some .ok) (relayAnswered e answer s))) := by
  have queue : (lineFreed answer s).relayQueue = s.relayQueue := by cases answer <;> rfl
  rw [exec_ends ends, outcomeTaken, work]
  dsimp only
  rw [relayEnd, queue, found]
  rfl

/-- The upstream answer at a relay's end: the whole payload, or NO_REPLY (R45, R46). -/
theorem relayAnswer_facts (e : RelayEntry) (answer : Option (List Byte)) :
    (relayAnswer e answer).tag = e.tag ∧ (relayAnswer e answer).isRestart = false ∧
    (∀ p, answer = some p → (relayAnswer e answer).kind = .relayed ∧ (relayAnswer e answer).payload = p ∧
      ((relayAnswer e answer).trimmed = true ↔ ∃ g x, e.body = .gate g x true)) ∧
    (answer = none → (relayAnswer e answer).kind = .refusal ∧
      (relayAnswer e answer).payload = [Code.noReply.byte, e.dest, e.body.kindByte] ∧
      (relayAnswer e answer).trimmed = false) := by
  have trimmed : e.body.isTrimmed = true ↔ ∃ g x, e.body = .gate g x true := by
    cases e.body <;> simp [RelayBody.isTrimmed]
  cases answer with
  | some p => exact ⟨rfl, rfl, fun q h => by cases h; exact ⟨rfl, rfl, trimmed⟩, fun h => nomatch h⟩
  | none => exact ⟨rfl, rfl, fun q h => (nomatch h), fun _ => ⟨rfl, rfl, rfl⟩⟩

/-- A MOVE answered OK, or one whose spout no longer travels to its target, changes nothing. -/
theorem moveOutcome_idle {s : State} {m : MoveFields} {cls : MoveClass} {c b : Bool}
    (h : b = true ∨ ¬ ((s.spouts.get m.spout).state = .moving ∧ (s.spouts.get m.spout).target.val = m.target.toNat)) :
    relayOutcome (.move m cls c) b s = s := by
  cases b with
  | true => rfl
  | false => exact undoMove_idle (h.resolve_left Bool.false_ne_true)

theorem keepsTravel_gates : KeepsTravel State.gates :=
  ⟨⟨keepsPlan_gates, fun _ _ => rfl, fun _ _ => rfl⟩, fun _ _ => rfl, fun _ _ => rfl⟩

theorem moveOutcome_gates (s : State) (m : MoveFields) (cls : MoveClass) (c b : Bool) :
    (relayOutcome (.move m cls c) b s).gates = s.gates := by
  cases b with
  | true => rfl
  | false => exact undoMove_keeps keepsTravel_gates _ _ _

/-- A relayed GATE ends: whatever its outcome, only its own gate's record is written. -/
theorem gateOutcome_keeps {k : State → κ} (hk : KeepsPlan k) {s : State} {g : GateFields} {x : Setting} {trim b : Bool}
    (hg : ∀ r, k (setGate g.spout r s) = k s) : k (relayOutcome (.gate g x trim) b s) = k s := by
  cases b with
  | true => exact (confirmGate_keeps hk s g.spout x).trans (hg _)
  | false => exact relayGateFailed_other hk s g.spout hg

theorem gateOutcome_ok (s : State) (g : GateFields) (x : Setting) (trim : Bool) :
    (relayOutcome (.gate g x trim) true s).gates.get g.spout =
      { state := .rest (if x = 0 then .closed else .opened), confirmed := x } :=
  (congrArg (·.get g.spout) (confirmGate_keeps keepsPlan_gates s g.spout x)).trans (Pair.get_set_self _ _ _)

theorem gateOutcome_failed {s : State} {g : GateFields} {d : Setting} {prior : GateRest}
    (h : (s.gates.get g.spout).state = .changing d (.relay prior)) (x : Setting) (trim : Bool) :
    (relayOutcome (.gate g x trim) false s).gates.get g.spout = { s.gates.get g.spout with state := .rest prior } :=
  (congrArg (·.get g.spout) (relayGateFailed_keeps keepsPlan_gates s h)).trans (Pair.get_set_self _ _ _)

/-- Settles O39: the entry is answered first; what follows is the outcome the owning block takes. -/
theorem relayEnds : Obligations.RelayEnds := by
  unfold Obligations.RelayEnds
  intro s c t answer tag e ends work found
  have ok := status_ok answer
  have run := exec_relayEnds ends work found
  obtain ⟨line, spouts, zones, gates, plan, orders, notices, freeboard, ready, queue⟩ := relayAnswered_kept e answer s
  have good : ∀ {b : Bool}, (answer.map statusOf == some .ok) = b → (b = true ↔ answeredOk answer) := fun h => by
    rw [← h, beq_iff_eq, ok]
  revert run good
  generalize (answer.map statusOf == some .ok) = b
  intro run good
  replace good := good rfl
  generalize hv : relayAnswered e answer s = v at *
  obtain ⟨upTag, upRestart, upAnswered, upSilent⟩ := relayAnswer_facts e answer
  refine ⟨_, run, (relayOutcome_line _ _ _).trans line,
    ⟨_, ready ▸ (relayOutcome_work e.body b v).ready_prefix, upTag, upRestart, upAnswered, upSilent⟩, fun x hx => ?_,
    fun d hb => ?_, fun m cls c hb => ⟨?_, fun idle => ?_, fun bad hm ht => ?_⟩,
    fun g x trim hb => ⟨?_, ?_, ?_, fun h => ?_, fun h d prior hp => ?_⟩⟩
  case refine_1 =>
    have hx := (relayOutcome_queue e.body b v).subset hx
    rw [queue, List.mem_filter] at hx
    exact ⟨hx.1, of_decide_eq_true hx.2⟩
  case refine_2 =>
    rw [hb]
    exact ⟨spouts, zones, gates, plan, orders, notices⟩
  case refine_3 => rw [hb, moveOutcome_gates, gates]
  case refine_4 =>
    rw [hb, moveOutcome_idle (by rw [good, spouts]; exact idle)]
    exact ⟨spouts, zones, plan, orders, notices⟩
  case refine_5 =>
    obtain rfl : b = false := Bool.eq_false_iff.mpr (mt good.mp bad)
    rw [hb]
    obtain ⟨deep, record, test, claims⟩ := undoMove_spouts (s := v) (by rw [spouts]; exact hm) (by rw [spouts]; exact ht)
    have deepSame : ∀ q, Deep v q ↔ Deep s q := fun q => by simp only [Deep, depthLimit, State.zone, zones, freeboard]
    rw [deepSame] at test
    refine ⟨deep, ?_, test, fun i => ?_⟩
    · rw [spouts] at record
      exact record
    · refine (claims i).trans ?_
      rw [State.zone, zones, spouts]
      rfl
  case refine_6 =>
    rw [hb]
    exact (gateOutcome_keeps keepsBlock_spouts.toKeepsPlan fun _ => rfl).trans spouts
  case refine_7 =>
    rw [hb]
    exact (gateOutcome_keeps keepsBlock_zones.toKeepsPlan fun _ => rfl).trans zones
  case refine_8 =>
    have other : otherSpout g.spout ≠ g.spout := by cases g.spout <;> decide
    rw [hb, ← gates]
    exact gateOutcome_keeps (k := fun s => s.gates.get (otherSpout g.spout)) (by constructor <;> intros <;> rfl) fun r =>
      Pair.get_set_other _ _ _ _ other
  case refine_9 =>
    obtain rfl := good.mpr h
    rw [hb]
    exact gateOutcome_ok _ _ _ _
  case refine_10 =>
    obtain rfl : b = false := Bool.eq_false_iff.mpr (mt good.mp h)
    rw [← gates] at hp
    rw [hb, ← gates]
    exact gateOutcome_failed hp _ _

end Sys2Proof.Machine
end

section
/-! The end of a dust poll (R85 to R87, R92 to R97). -/

namespace Sys2Proof.Machine

/-! ## One head's judgement reads no sampled mark and keeps the head's place -/

/-- A head with its sampled mark written. -/
def Head.marked (b : Bool) (h : Head) : Head := { h with sampled := b }

theorem riseCount_marked (d : Dust) (c : Word16) (b : Bool) (h : Head) :
    riseCount d c (h.marked b) = (riseCount d c h).marked b := by
  have level : sampleLevel (h.marked b) c = sampleLevel h c := rfl
  unfold riseCount
  rw [level]
  dsimp only
  rw [apply_ite (Head.marked b), apply_ite (Head.marked b)]
  rfl

theorem fallCount_marked (w : Word16) (d : Dust) (c : Word16) (b : Bool) (h : Head) :
    fallCount w d c (h.marked b) = (fallCount w d c h).marked b := by
  unfold fallCount
  rw [apply_ite (Head.marked b), apply_ite (Head.marked b)]
  rfl

theorem judgeSample_marked (c : Word16) (b : Bool) (h : Head) : judgeSample c (h.marked b) = (judgeSample c h).marked b := by
  have state : (h.marked b).state = h.state := rfl
  unfold judgeSample
  rw [state]
  split
  · exact riseCount_marked _ _ _ _
  · dsimp only
    rw [riseCount_marked]
    show (if (riseCount .watch c h).state = _ then _ else _) = _
    split
    · exact fallCount_marked _ _ _ _ _
    · rfl
  · dsimp only
    rw [riseCount_marked]
    show (if (riseCount .alarm c h).state = _ then _ else _) = _
    split
    · exact fallCount_marked _ _ _ _ _
    · rfl
  · rfl
  · exact riseCount_marked _ _ _ { h with state := .live .quiet, riseCount := 0, fallCount := 0 }

theorem validSample_marked (c : Word16) (b : Bool) (h : Head) : validSample c (h.marked b) = (validSample c h).marked b :=
  judgeSample_marked c b { h with sample := c, sampleValid := true, missCount := 0 }

theorem missSample_marked (b : Bool) (h : Head) : missSample (h.marked b) = (missSample h).marked b := by
  unfold missSample
  dsimp only
  rw [apply_ite (Head.marked b)]
  rfl

/-- The two heads stand at the same place: both present or both absent, at one station. -/
def SamePlace (g h : Head) : Prop := g.present = h.present ∧ g.station = h.station

theorem riseCount_place (d : Dust) (c : Word16) (h : Head) : SamePlace (riseCount d c h) h := by
  unfold riseCount
  dsimp only
  split
  · split <;> exact ⟨rfl, rfl⟩
  · exact ⟨rfl, rfl⟩

theorem fallCount_place (w : Word16) (d : Dust) (c : Word16) (h : Head) : SamePlace (fallCount w d c h) h := by
  unfold fallCount
  split
  · split <;> exact ⟨rfl, rfl⟩
  · exact ⟨rfl, rfl⟩

theorem SamePlace.trans {f g h : Head} (i : SamePlace f g) (j : SamePlace g h) : SamePlace f h :=
  ⟨i.1.trans j.1, i.2.trans j.2⟩

theorem judgeSample_place (c : Word16) (h : Head) : SamePlace (judgeSample c h) h := by
  unfold judgeSample
  split
  · exact riseCount_place _ _ _
  · dsimp only
    split
    · exact (fallCount_place _ _ _ _).trans (riseCount_place _ _ _)
    · exact riseCount_place _ _ _
  · dsimp only
    split
    · exact (fallCount_place _ _ _ _).trans (riseCount_place _ _ _)
    · exact riseCount_place _ _ _
  · exact ⟨rfl, rfl⟩
  · exact riseCount_place _ _ { h with state := .live .quiet, riseCount := 0, fallCount := 0 }

theorem validSample_place (c : Word16) (h : Head) : SamePlace (validSample c h) h :=
  judgeSample_place c { h with sample := c, sampleValid := true, missCount := 0 }

theorem missSample_place (h : Head) : SamePlace (missSample h) h := by
  unfold missSample
  dsimp only
  split <;> exact ⟨rfl, rfl⟩

/-! ## What the change of a head writes -/

theorem set_getElem_fin {α : Type} {n : Nat} (v : Vector α n) (i j : Fin n) (x : α) :
    (v.set i.val x)[j] = if j = i then x else v[j] := by
  show (v.set i.val x)[j.val] = _
  rw [Vector.getElem_set]
  by_cases h : j = i
  · rw [if_pos h, if_pos (congrArg Fin.val h.symm)]
  · rw [if_neg h, if_neg fun k => h (Fin.ext k.symm)]
    rfl

/-- Making hold dust states known writes only what an evaluation of the pour block can write. -/
theorem dustKnown_reads {k : State → κ} (hk : KeepsBlock k) (before s : State) : k (dustKnown before s) = k s := by
  have notice : ∀ t h, k (holdNotice before h t) = k t := fun t h => by
    unfold holdNotice
    split
    · split
      · exact setNotice_keeps hk.toKeepsPlan t _ _
      · exact setNotice_keeps hk.toKeepsPlan t _ _
      · rfl
    · rfl
  have spout : ∀ sp t, k (dustSpout before sp t) = k t := fun sp t => by
    unfold dustSpout alarmReduce
    split
    · split
      · split
        · rw [reduceTo_keeps hk.toKeepsPlan, evaluateBlock_keeps hk]
        · exact evaluateBlock_keeps hk t _ _
      · exact evaluateBlock_keeps hk t _ _
    · exact evaluateBlock_keeps hk t _ _
  unfold dustKnown
  split
  · rfl
  · dsimp only
    rw [activationTest_keeps hk.toKeepsPlan, spout, spout]
    exact keeps_foldl _ notice _ _

theorem changeHead_reads {k : State → κ} (hk : KeepsBlock k) (hd : ∀ s x, k (s.withHoldDust x) = k s) (i : HeadIx)
    (h : Head) (s : State) : k (changeHead i h s) = k (setHead i h s) := by
  unfold changeHead
  dsimp only
  split
  · rfl
  · rw [dustKnown_reads hk]
    exact hd _ _

theorem changeHead_heads (i : HeadIx) (h : Head) (s : State) : (changeHead i h s).heads = s.heads.set i.val h :=
  changeHead_reads (k := State.heads) ⟨by constructor <;> intros <;> rfl, fun _ _ => rfl, fun _ _ => rfl⟩
    (fun _ _ => rfl) i h s

theorem changeHead_cycle (i : HeadIx) (h : Head) (s : State) : (changeHead i h s).cycle = s.cycle :=
  changeHead_reads (k := State.cycle) ⟨by constructor <;> intros <;> rfl, fun _ _ => rfl, fun _ _ => rfl⟩
    (fun _ _ => rfl) i h s

/-! ## The head after its poll -/

theorem markSampled_head (i : HeadIx) (s : State) : (markSampled i s).heads[i] = (s.heads[i]).marked true :=
  (set_getElem_fin _ _ _ _).trans (if_pos rfl)

theorem applyOutcome_valid (i : HeadIx) (x : Word16) (s : State) : applyOutcome i (some x) (markSampled i s) =
    changeHead i ((validSample x s.heads[i]).marked true) (markSampled i s) := by
  unfold applyOutcome
  dsimp only
  rw [markSampled_head, validSample_marked]

theorem applyOutcome_missed (i : HeadIx) (s : State) : applyOutcome i none (markSampled i s) =
    changeHead i ((missSample s.heads[i]).marked true)
      (if (s.heads[i]).missCount = 1 then setNotice .fieldSilent (subjectByte (s.heads[i]).station) (markSampled i s)
      else markSampled i s) := by
  unfold applyOutcome
  dsimp only
  rw [markSampled_head, missSample_marked]
  simp only [secondMiss, Head.marked, beq_iff_eq]

/-- After a poll's outcome only the polled head's entry is another; it stands where it stood, and is sampled. -/
structure HeadPolled (i : HeadIx) (s y : State) : Prop where
  head : ∃ g, SamePlace g s.heads[i] ∧ g.sampled = true ∧ y.heads = s.heads.set i.val g
  cycle : y.cycle = { s.cycle with pendingHead := none }

theorem applyOutcome_polled (i : HeadIx) (o : Option Word16) (s : State) :
    HeadPolled i s (applyOutcome i o (markSampled i s)) := by
  have marked : (markSampled i s).heads = s.heads.set i.val ((s.heads[i]).marked true) := rfl
  cases o with
  | some x =>
    rw [applyOutcome_valid]
    refine ⟨⟨(validSample x s.heads[i]).marked true, validSample_place x s.heads[i], rfl, ?_⟩, changeHead_cycle _ _ _⟩
    rw [changeHead_heads, marked, Vector.set_set]
  | none =>
    rw [applyOutcome_missed]
    refine ⟨⟨(missSample s.heads[i]).marked true, missSample_place s.heads[i], rfl, ?_⟩, ?_⟩
    · rw [changeHead_heads, apply_ite State.heads]
      show (if _ then s.heads.set i.val _ else s.heads.set i.val _).set i.val _ = _
      rw [ite_self, Vector.set_set]
    · rw [changeHead_cycle, apply_ite State.cycle]
      exact ite_self _

namespace HeadPolled

variable {i : HeadIx} {s y : State}

theorem other (h : HeadPolled i s y) {j : HeadIx} (hj : j ≠ i) : y.heads[j] = s.heads[j] := by
  obtain ⟨g, _, _, heads⟩ := h.head
  rw [heads, set_getElem_fin, if_neg hj]

theorem polled (h : HeadPolled i s y) : (y.heads[i]).sampled = true := by
  obtain ⟨g, _, sampled, heads⟩ := h.head
  rw [heads, set_getElem_fin, if_pos rfl, sampled]

theorem place (h : HeadPolled i s y) (j : HeadIx) : SamePlace y.heads[j] s.heads[j] := by
  by_cases hj : j = i
  · subst hj
    obtain ⟨g, place, _, heads⟩ := h.head
    rw [heads, set_getElem_fin, if_pos rfl]
    exact place
  · rw [h.other hj]
    exact ⟨rfl, rfl⟩

/-- The heads still to be sampled are the other present ones without the mark. -/
theorem waits_iff (h : HeadPolled i s y) (j : HeadIx) : ((y.heads[j]).present && !(y.heads[j]).sampled) = true ↔
    (s.heads[j]).present = true ∧ (s.heads[j]).sampled = false ∧ j ≠ i := by
  rw [Bool.and_eq_true, Bool.not_eq_true']
  by_cases hj : j = i
  · subst hj
    rw [h.polled]
    simp
  · rw [h.other hj]
    simp [hj]

end HeadPolled

/-! ## The next head, or the cycle's end -/

theorem pollDue_polled (p : Poll) (s : State) : pollDue p s = s.withPolls (polled s s.polls p) := by
  have any : (s.polls.any (fun x => x.station == p.station) || pollOnLine s p.station) = true ↔
      (∃ x ∈ s.polls, x.station = p.station) ∨ pollOnLine s p.station = true := by simp [List.any_eq_true]
  unfold pollDue polled
  simp only [any]
  split <;> rfl

theorem polled_of_line {s t : State} (h : t.line = s.line) (q : List Poll) (p : Poll) : polled t q p = polled s q p := by
  unfold polled pollOnLine
  rw [h]

/-- The head table of a new cycle: no head is sampled. -/
@[irreducible] def unsampled (v : Vector Head 16) : Vector Head 16 := Vector.ofFn fun k => { v[k] with sampled := false }

theorem unsampled_eq (v : Vector Head 16) : unsampled v = mapTable (Head.marked false) v := by
  unfold unsampled
  rfl

theorem unsampled_getElem (v : Vector Head 16) (j : HeadIx) : (unsampled v)[j] = (v[j]).marked false := by
  rw [unsampled_eq, mapTable_getElem]

/-- The cycle's fields after the first steps of its start. -/
def cycleOpened (s : State) : Cycle :=
  { state := .cycling, pendingHead := none, overrun := false, timer := some s.settings.inUse.cyclePeriod.toNat }

section
variable {i : HeadIx} {s y : State} (h : HeadPolled i s y)
include h

theorem HeadPolled.next {j : HeadIx}
    (hj : (s.heads[j]).present = true ∧ (s.heads[j]).sampled = false ∧ j ≠ i)
    (least : ∀ k, k < j → ¬ ((s.heads[k]).present = true ∧ (s.heads[k]).sampled = false ∧ k ≠ i)) :
    nextInCycle y = (y.withCycle { s.cycle with pendingHead := some j }).withPolls
      (Machine.polled y y.polls { station := (s.heads[j]).station, kind := .dust j }) := by
  have next : nextHead y = some j := finRange_find?_least ((h.waits_iff j).mpr hj) fun k hk => mt (h.waits_iff k).mp (least k hk)
  unfold nextInCycle askDust
  rw [next]
  dsimp only
  rw [pollDue_polled, (h.place j).2, h.cycle]
  rfl

theorem HeadPolled.over (none : ∀ j, ¬ ((s.heads[j]).present = true ∧ (s.heads[j]).sampled = false ∧ j ≠ i)) :
    nextInCycle y = endCycle y := by
  have next : nextHead y = .none := List.find?_eq_none.mpr fun j _ => mt (h.waits_iff j).mp (none j)
  unfold nextInCycle
  rw [next]

theorem HeadPolled.idles (hr : s.cycle.overrun = false) :
    endCycle y = y.withCycle { s.cycle with state := .idle, pendingHead := none } := by
  unfold endCycle
  rw [h.cycle, if_neg (by simp [hr])]

/-- With the overrun latch set the next cycle starts at once, with the lowest present head. -/
theorem HeadPolled.restarts (hr : s.cycle.overrun = true) (settings : y.settings = s.settings) :
    endCycle y = ((y.withHeads (unsampled y.heads)).withCycle
      { state := if ((List.finRange 16).find? fun j : HeadIx => (s.heads[j]).present).isSome then .cycling else .idle,
        pendingHead := (List.finRange 16).find? fun j : HeadIx => (s.heads[j]).present, overrun := false,
        timer := some s.settings.inUse.cyclePeriod.toNat }).withPolls ((firstDustPoll s).foldl (Machine.polled y) y.polls) := by
  have opened : openCycle y = (y.withHeads (unsampled y.heads)).withCycle (cycleOpened s) := by
    unfold cycleOpened
    rw [← settings, unsampled_eq]
    rfl
  have next : nextHead (openCycle y) = (List.finRange 16).find? fun j : HeadIx => (s.heads[j]).present := by
    rw [opened]
    show (List.finRange 16).find? (fun j : HeadIx => ((unsampled y.heads)[j]).present && !((unsampled y.heads)[j]).sampled) = _
    congr 1
    funext j
    rw [unsampled_getElem]
    dsimp only [Head.marked]
    rw [(h.place j).1, Bool.not_false, Bool.and_true]
  have start : endCycle y = startCycle y := if_pos (by rw [h.cycle]; exact hr)
  unfold firstDustPoll
  rw [start]
  unfold startCycle
  rw [next, opened]
  cases (List.finRange 16).find? fun j : HeadIx => (s.heads[j]).present with
  | some j =>
    dsimp only [Option.isSome, List.foldl]
    have station : (((y.withHeads (unsampled y.heads)).withCycle (cycleOpened s)).heads[j]).station = (s.heads[j]).station :=
      (congrArg Head.station (unsampled_getElem y.heads j)).trans (h.place j).2
    rw [askDust, pollDue_polled, station, polled_of_line (s := y)]
    · rfl
    · rfl
  | none => rfl

end

/-! ## O42 -/

/-- What a dust poll's outcome leaves alone. -/
structure DustLeaves (s y : State) : Prop where
  spouts : y.spouts = s.spouts
  zones : y.zones = s.zones
  settings : y.settings = s.settings
  runc : y.runc = s.runc
  gates : y.gates = s.gates
  unbilled : y.unbilled = s.unbilled
  clock : y.clock = s.clock
  timers : y.timers = s.timers

theorem applyOutcome_leaves (i : HeadIx) (o : Option Word16) (s : State) :
    DustLeaves s (applyOutcome i o (markSampled i s)) := by
  have keeps : KeepsDust fun s =>
      (s.spouts, s.zones, s.settings, s.runc, s.gates, s.unbilled, s.clock, s.timers) :=
    ⟨⟨by constructor <;> intros <;> rfl, fun _ _ => rfl, fun _ _ => rfl⟩, fun _ _ => rfl, fun _ _ => rfl, fun _ _ => rfl,
      fun _ _ => rfl⟩
  have same := (applyOutcome_keeps keeps (markSampled i s) i o).trans (markSampled_keeps keeps s i)
  simp only [Prod.mk.injEq] at same
  obtain ⟨spouts, zones, settings, runc, gates, unbilled, clock, timers⟩ := same
  exact ⟨spouts, zones, settings, runc, gates, unbilled, clock, timers⟩

theorem lineFreed_leaves (answer : Option (List Byte)) (s : State) :
    DustLeaves s (lineFreed answer s) ∧ (lineFreed answer s).heads = s.heads ∧ (lineFreed answer s).cycle = s.cycle := by
  cases answer <;> exact ⟨⟨rfl, rfl, rfl, rfl, rfl, rfl, rfl, rfl⟩, rfl, rfl⟩

theorem markSampled_lineFreed (i : HeadIx) (answer : Option (List Byte)) (s : State) :
    ((lineFreed answer s).withHeads (s.heads.set i.val { s.heads[i] with sampled := true })).withCycle
      { s.cycle with pendingHead := none } = markSampled i (lineFreed answer s) := by
  cases answer <;> rfl

theorem exec_dustPollEnds {s : State} {c : Instr} {t : Transaction} {answer : Option (List Byte)} {i : HeadIx}
    (ends : Ends s t c answer) (work : t.work = .poll (.dust i)) : exec c s = .next (arbitrate (nextInCycle
      (applyOutcome i (answer.bind readDust) (markSampled i (lineFreed answer s))))) := by
  rw [exec_ends ends, outcomeTaken, work]
  rfl

/-- Settles O42: the polled head is judged and known; then the next head is asked for, or the cycle ends. -/
theorem dustPollEnds : Obligations.DustPollEnds := by
  unfold Obligations.DustPollEnds
  intro s c t answer i ends work
  dsimp only
  have run := exec_dustPollEnds ends work
  obtain ⟨freed, heads, cycle⟩ := lineFreed_leaves answer s
  have leaves := applyOutcome_leaves i (answer.bind readDust) (lineFreed answer s)
  have polled := applyOutcome_polled i (answer.bind readDust) (lineFreed answer s)
  have valid := fun x => applyOutcome_valid i x (lineFreed answer s)
  have missed := applyOutcome_missed i (lineFreed answer s)
  have settings := leaves.settings
  rw [markSampled_lineFreed]
  rw [heads] at valid missed
  generalize hy : applyOutcome i (answer.bind readDust) (markSampled i (lineFreed answer s)) = y at *
  replace polled : HeadPolled i s y := ⟨by rw [← heads]; exact polled.head, by rw [← cycle]; exact polled.cycle⟩
  have read := bind_some readDust_some answer
  refine ⟨y, fun x h => ?_, fun none => ?_, fun j hj => polled.other hj, polled.polled, leaves.spouts.trans freed.spouts,
    leaves.zones.trans freed.zones, settings.trans freed.settings, leaves.runc.trans freed.runc,
    leaves.gates.trans freed.gates, leaves.unbilled.trans freed.unbilled, leaves.clock.trans freed.clock,
    leaves.timers.trans freed.timers, fun j hj least => ?_, fun none hr => ?_, fun none hr => ?_⟩
  · rw [← hy, (read x).mpr ⟨_, h, rfl⟩]
    exact valid x
  · have unread : answer.bind readDust = .none := Option.eq_none_iff_forall_ne_some.mpr fun x h => by
      obtain ⟨_, ha, rfl⟩ := (read x).mp h
      exact none x ha
    rw [← hy, unread]
    exact missed
  · rw [run, polled.next hj least]
  · rw [run, polled.over none, polled.idles hr]
  · rw [run, polled.over none, polled.restarts hr (settings.trans freed.settings)]
    unfold unsampled
    rfl

end Sys2Proof.Machine
end

section
/-! What the work on the plan does to bills and notices: step counts, STEP_DONE and TRIM_TAKEN, nothing else (R134, R149,
R165). -/

namespace Sys2Proof.Machine

/-! ## Readings that the work on the plan keeps

`KeepsPlan` is for readings blind to every bill and every notice. A reading of a bill's amounts or of one notice is kept
as well, since of bills the plan's work writes the step count alone, and of notices STEP_DONE and TRIM_TAKEN. -/

/-- `k` is kept by each writing of PSEQ, STACK and GATE's postings. -/
structure KeepsPour (k : State → κ) : Prop where
  orders : ∀ s x, k (s.withOrders x) = k s
  plan : ∀ s x, k (s.withPlan x) = k s
  stepCounter : ∀ s x, k (s.withStepCounter x) = k s
  account : ∀ s x, k (s.withAccount x) = k s
  stack : ∀ s x, k (s.withStack x) = k s
  countDone : ∀ s, k (countDoneStep s) = k s
  stepDone : ∀ s n, k (setNotice .stepDone n s) = k s
  trimTaken : ∀ s n, k (setNotice .trimTaken n s) = k s

variable {k : State → κ}

theorem KeepsPlan.pour (hk : KeepsPlan k) : KeepsPour k where
  orders := hk.orders
  plan := hk.plan
  stepCounter := hk.stepCounter
  account := hk.account
  stack := hk.stack
  countDone := countDoneStep_keeps hk
  stepDone := fun s _ => setNotice_keeps hk s _ _
  trimTaken := fun s _ => setNotice_keeps hk s _ _

namespace KeepsPour

variable (hk : KeepsPour k) (s : State)
include hk

theorem postGate (sp : Spout) (x : Setting) : k (postGate sp x s) = k s := by
  unfold Machine.postGate
  split
  · exact hk.orders _ _
  · rfl

theorem closeUnlessClosed (sp : Spout) : k (closeUnlessClosed sp s) = k s := by
  unfold Machine.closeUnlessClosed
  split
  · rfl
  · exact hk.postGate s sp 0

theorem reduceTo (sp : Spout) (x : Setting) : k (reduceTo sp x s) = k s := by
  unfold Machine.reduceTo
  split
  · split
    · exact hk.postGate s sp x
    · rfl
  · rfl

theorem openAtCap (sp : Spout) : k (openAtCap sp s) = k s := by
  unfold Machine.openAtCap
  split
  · exact hk.postGate s sp _
  · rfl

theorem setStepState (n : Word16) (x : StepState) : k (setStepState n x s) = k s := hk.plan _ _

theorem joinPlan (mk : Word16 → StepRec) (place : StepRec → List StepRec → List StepRec) :
    k (joinPlan mk place s) = k s := (hk.stepCounter _ _).trans (hk.plan _ _)

theorem pushEntry (sp : Spout) (e : StackEntry) : k (pushEntry sp e s) = k s := by
  unfold Machine.pushEntry
  split <;> exact hk.stack _ _

theorem pushRunning (sp : Spout) (r : StepRec) (req : TrimRequest) : k (pushRunning sp r req s) = k s := by
  unfold Machine.pushRunning
  dsimp only
  rw [hk.joinPlan]
  split
  · rw [hk.closeUnlessClosed, hk.setStepState, hk.pushEntry]
  · rw [hk.setStepState, hk.pushEntry]

theorem serveLatch (sp : Spout) : k (serveLatch sp s) = k s := by
  have clear : ∀ t, k (clearLatch sp t) = k t := fun t => hk.stack _ _
  unfold Machine.serveLatch
  split
  · rfl
  · split
    · rw [hk.trimTaken, clear]
    · dsimp only
      rw [hk.trimTaken, clear]
      split
      · exact hk.pushRunning s _ _ _
      · exact hk.joinPlan s _ _

theorem serveShared : k (serveShared s) = k s := by
  unfold Machine.serveShared
  split
  · dsimp only
    split
    · rw [hk.serveLatch, hk.serveLatch]
    · exact hk.serveLatch s _
  · rfl

theorem dropTop (sp : Spout) : k (dropTop sp s) = k s := by
  unfold Machine.dropTop
  split
  · split <;> exact hk.stack _ _
  · exact hk.stack _ _

theorem markDone (n : Word16) : k (markDone n s) = k s := by
  unfold Machine.markDone
  rw [hk.countDone, hk.stepDone, hk.setStepState]

theorem popCascade (sp : Spout) (fuel : Nat) (n : Word16) : k (popCascade sp fuel n s) = k s := by
  induction fuel generalizing n s with
  | zero => rfl
  | succ fuel ih =>
    have popped : ∀ e : StackEntry, k (Machine.setStepState e.suspended .waiting (Machine.dropTop sp s)) = k s := fun e => by
      rw [hk.setStepState, hk.dropTop]
    unfold Machine.popCascade
    split
    · rfl
    · split
      · dsimp only
        split
        · exact popped _
        · split
          · split
            · rw [ih, hk.markDone, popped]
            · rw [hk.markDone, popped]
          · exact popped _
      · rfl

theorem trimEnded (sp : Spout) (n : Word16) : k (trimEnded sp n s) = k s := by
  have offered : ∀ (p : Prop) [Decidable p], k (if p then Machine.serveLatch sp (Machine.popCascade sp 4 n s)
      else Machine.popCascade sp 4 n s) = k s := fun p _ => by
    split
    · rw [hk.serveLatch, hk.popCascade]
    · exact hk.popCascade s _ _ _
  unfold Machine.trimEnded
  dsimp only
  split
  · rw [hk.serveShared, offered]
  · exact offered _

theorem enterDone (r : StepRec) : k (enterDone r s) = k s := by
  have after : ∀ t, k (afterEnd r t) = k t := fun t => by
    unfold afterEnd
    split
    · exact hk.trimEnded t _ _
    · rfl
  unfold Machine.enterDone
  dsimp only
  rw [after, hk.countDone, hk.stepDone]
  split
  · rw [hk.closeUnlessClosed, hk.setStepState]
  · exact hk.setStepState s _ _

theorem topOff (n : Word16) : k (topOff n s) = k s := by
  unfold Machine.topOff
  split
  · rfl
  · split
    · dsimp only
      split
      · exact (hk.reduceTo _ _ _).trans (hk.plan _ _)
      · exact hk.plan _ _
    · rfl

theorem poursNow (r : StepRec) : k (poursNow r s) = k s := by
  unfold Machine.poursNow
  dsimp only
  split
  · rw [hk.openAtCap, hk.topOff]
  · exact hk.topOff s _

theorem activate (r : StepRec) : k (activate r s) = k s := by
  unfold Machine.activate
  rw [hk.poursNow, hk.account, hk.setStepState]

theorem returnActive (r : StepRec) : k (returnActive r s) = k s := by
  unfold Machine.returnActive
  rw [hk.poursNow, hk.setStepState]

theorem testSpout (sp : Spout) : k (testSpout sp s).1 = k s := by
  unfold Machine.testSpout
  split
  · rfl
  · split
    · split
      · exact hk.enterDone s _
      · split
        · exact hk.activate s _
        · rfl
    · split
      · split
        · exact hk.returnActive s _
        · rfl
      · rfl

theorem activationTest : k (activationTest s) = k s := by
  have rounds : ∀ (fuel : Nat) (t : State), k (activationRounds fuel t) = k t := by
    intro fuel
    induction fuel with
    | zero => exact fun _ => rfl
    | succ fuel ih =>
      intro t
      unfold activationRounds
      dsimp only
      split
      · rw [ih, hk.testSpout, hk.testSpout]
      · rw [hk.testSpout, hk.testSpout]
  exact rounds _ _

/-- The crediting of a delta to the account step. -/
theorem creditStep (sp : Spout) (d : Word32) : k (creditStep sp d s).1 = k s := by
  have credited : ∀ (n : Word16) (f : StepRec → StepRec), k (updateStep n f s) = k s := fun n f => hk.plan _ _
  unfold Machine.creditStep
  split
  · rfl
  · dsimp only
    split
    · exact credited _ _
    · split
      · rw [hk.enterDone, credited]
      · split
        · rw [hk.topOff, credited]
        · exact credited _ _

end KeepsPour

end Sys2Proof.Machine
end

section
/-! The end of a scale poll (R154 to R160). -/

namespace Sys2Proof.Machine

/-! ## The bill table but for the step count of the OPEN record -/

/-- A bill without what the plan's work can change of it: an OPEN record's step count. -/
def Bill.stepless (b : Bill) : Bill := if b.state = .opened then { b with steps := 0 } else b

/-- The bill table in that view. -/
def billsView (s : State) (i : Fin 8) : Option Bill := (s.bills[i]).map Bill.stepless

theorem Bill.stepless_state (b : Bill) : b.stepless.state = b.state := by
  unfold Bill.stepless
  split <;> rfl

theorem Bill.stepless_of_closed {b : Bill} (h : b.state ≠ .opened) : b.stepless = b := if_neg h

theorem Bill.stepless_of_opened {b : Bill} (h : b.state = .opened) : b.stepless = { b with steps := 0 } := if_pos h

theorem openSlot_some {s : State} {i : Fin 8} (h : openSlot s = some i) : ∃ b, s.bills[i] = some b ∧ b.state = .opened := by
  have := List.find?_some h
  split at this
  · rename_i b hb
    exact ⟨b, hb, by simpa using this⟩
  · cases this

theorem openSlot_none {s : State} (h : openSlot s = none) {i : Fin 8} {b : Bill} (hb : s.bills[i] = some b) :
    b.state ≠ .opened := by
  have := List.find?_eq_none.mp h i (List.mem_finRange i)
  rw [hb] at this
  simpa using this

/-- Two tables that look alike have their OPEN record in the same slot. -/
theorem openSlot_of_view {s t : State} (h : billsView t = billsView s) : openSlot t = openSlot s := by
  unfold openSlot
  congr 1
  funext i
  have hi := congrFun h i
  unfold billsView at hi
  cases ht : t.bills[i] <;> cases hs : s.bills[i] <;> rw [ht, hs] at hi
  · cases hi
  · cases hi
  · have state := congrArg Bill.state (Option.some.inj hi)
    rw [Bill.stepless_state, Bill.stepless_state] at state
    dsimp only
    rw [state]

/-- Without an OPEN record, tables that look alike are the same. -/
theorem bills_of_view {s t : State} (h : billsView t = billsView s) (none : openSlot s = none) : t.bills = s.bills := by
  refine Vector.ext fun i hi => ?_
  have view := congrFun h ⟨i, hi⟩
  unfold billsView at view
  have closed : ∀ u, openSlot u = .none → (u.bills[(⟨i, hi⟩ : Fin 8)]).map Bill.stepless = u.bills[(⟨i, hi⟩ : Fin 8)] := by
    intro u hu
    cases hb : u.bills[(⟨i, hi⟩ : Fin 8)] with
    | none => rfl
    | some b => exact congrArg some (Bill.stepless_of_closed (openSlot_none hu hb))
  rw [closed t ((openSlot_of_view h).trans none), closed s none] at view
  exact view

/-- The OPEN record, seen again after the plan's work: only its step count can be another. -/
theorem openBill_of_view {s t : State} (h : billsView t = billsView s) {i : Fin 8} {b : Bill} (hb : s.bills[i] = some b)
    (ho : b.state = .opened) : ∃ n, t.bills[i] = some { b with steps := n } := by
  have view := congrFun h i
  unfold billsView at view
  rw [hb] at view
  cases ht : t.bills[i] with
  | none => rw [ht] at view; cases view
  | some c =>
    rw [ht] at view
    have same := Option.some.inj view
    have co : c.state = .opened := by
      have := congrArg Bill.state same
      rwa [Bill.stepless_state, Bill.stepless_state, ho] at this
    rw [Bill.stepless_of_opened ho, Bill.stepless_of_opened co] at same
    exact ⟨c.steps, by rw [show c = { (({ c with steps := 0 } : Bill)) with steps := c.steps } from rfl, same]⟩

theorem updateOpenBill_none {s : State} (h : openSlot s = none) (f : Bill → Bill) : updateOpenBill f s = s := by
  unfold updateOpenBill
  rw [h]

theorem updateOpenBill_some {s : State} {i : Fin 8} {b : Bill} (h : openSlot s = some i) (hb : s.bills[i] = some b)
    (f : Bill → Bill) : updateOpenBill f s = setBill i (f b) s := by
  unfold updateOpenBill
  rw [h]
  dsimp only
  rw [hb]

theorem setBill_getElem (i j : Fin 8) (b : Bill) (s : State) :
    (setBill i b s).bills[j] = if j = i then some b else s.bills[j] := set_getElem_fin _ _ _ _

theorem countDoneStep_view (s : State) : billsView (countDoneStep s) = billsView s := by
  unfold countDoneStep
  cases h : openSlot s with
  | none => rw [updateOpenBill_none h]
  | some i =>
    obtain ⟨b, hb, ho⟩ := openSlot_some h
    rw [updateOpenBill_some h hb]
    funext j
    unfold billsView
    rw [setBill_getElem]
    split
    · rename_i hj
      subst hj
      rw [hb]
      exact congrArg some ((if_pos ho).trans (if_pos ho).symm)
    · rfl

theorem keepsPour_billsView : KeepsPour billsView where
  orders _ _ := rfl
  plan _ _ := rfl
  stepCounter _ _ := rfl
  account _ _ := rfl
  stack _ _ := rfl
  countDone := countDoneStep_view
  stepDone _ _ := rfl
  trimTaken _ _ := rfl

/-! ## One notice -/

/-- The flag and subject of one notice. -/
def noticeAt (n : Fin 13) (s : State) : Bool × Word16 := (s.notices.flags[n], s.notices.subjects[n])

theorem setNotice_at (n : Notice) (j : Fin 13) (v : Word16) (s : State) :
    noticeAt j (setNotice n v s) = if j = n.ix then (true, v) else noticeAt j s := by
  unfold noticeAt
  show ((s.notices.flags.set n.ix.val true)[j], (s.notices.subjects.set n.ix.val v)[j]) = _
  rw [set_getElem_fin, set_getElem_fin]
  split <;> rfl

theorem countDoneStep_notices (s : State) : (countDoneStep s).notices = s.notices := by
  unfold countDoneStep updateOpenBill
  split
  · split <;> rfl
  · rfl

/-- The plan's work keeps every notice but STEP_DONE and TRIM_TAKEN. -/
theorem keepsPour_noticeAt {j : Fin 13} (hd : j ≠ Notice.stepDone.ix) (ht : j ≠ Notice.trimTaken.ix) :
    KeepsPour (noticeAt j) where
  orders _ _ := rfl
  plan _ _ := rfl
  stepCounter _ _ := rfl
  account _ _ := rfl
  stack _ _ := rfl
  countDone s := by
    unfold noticeAt
    rw [countDoneStep_notices]
  stepDone s n := by rw [setNotice_at, if_neg hd]
  trimTaken s n := by rw [setNotice_at, if_neg ht]

/-! ## A plausible delta is attributed -/

section
variable (sp : Spout) (d : Word32) (s : State)

/-- What the activation test keeps is settled once the delta is placed. -/
theorem attributeDelta_reads {k : State → κ} (hk : KeepsPour k) :
    k (attributeDelta sp d s) = k (placeDelta sp d (creditStep sp d s).1) := by
  unfold attributeDelta
  dsimp only
  split
  · exact hk.activationTest _
  · rfl

theorem placeDelta_stray {s : State} (h : openSlot s = none) :
    placeDelta sp d s = setNotice .strayFlow (subjectSpout sp) (s.withUnbilled (s.unbilled + d)) := by
  unfold placeDelta
  rw [h]

theorem placeDelta_hold {s : State} {i : Fin 8} {x : Hold} (h : openSlot s = some i) (hh : currentHold s sp = some x) :
    placeDelta sp d s = updateOpenBill (fun b => b.addHold x d) s := by
  unfold placeDelta
  rw [h, hh]

theorem placeDelta_unplaced {s : State} {i : Fin 8} (h : openSlot s = some i) (hh : currentHold s sp = none) :
    placeDelta sp d s = setNotice .strayFlow (subjectSpout sp) (updateOpenBill (fun b => b.addUnplaced d) s) := by
  unfold placeDelta
  rw [h, hh]

/-- Readings that see no bill, no notice, no plan and no unbilled amount are kept by the whole attribution. -/
theorem attributeDelta_keeps {k : State → κ} (hk : KeepsPlan k) (hu : ∀ s x, k (s.withUnbilled x) = k s) :
    k (attributeDelta sp d s) = k s := by
  rw [attributeDelta_reads sp d s hk.pour]
  have placed : ∀ t, k (placeDelta sp d t) = k t := fun t => by
    unfold placeDelta
    split
    · split
      · exact updateOpenBill_keeps hk _ _
      · rw [setNotice_keeps hk, updateOpenBill_keeps hk]
    · rw [setNotice_keeps hk, hu]
  rw [placed, hk.pour.creditStep]

theorem creditStep_view : billsView (creditStep sp d s).1 = billsView s := keepsPour_billsView.creditStep s sp d

theorem keepsPlan_unbilled : KeepsPlan State.unbilled := by constructor <;> intros <;> rfl

theorem keepsPlan_currentHold : KeepsPlan fun s => currentHold s sp := by constructor <;> intros <;> rfl

theorem creditStep_unbilled : (creditStep sp d s).1.unbilled = s.unbilled := keepsPlan_unbilled.pour.creditStep s sp d

theorem creditStep_hold : currentHold (creditStep sp d s).1 sp = currentHold s sp :=
  (keepsPlan_currentHold sp).pour.creditStep s sp d

theorem keepsPour_strayFlow : KeepsPour (noticeAt 8) := keepsPour_noticeAt (by decide) (by decide)

theorem strayFlow_at (t : State) : noticeAt 8 (setNotice .strayFlow (subjectSpout sp) t) = (true, subjectSpout sp) :=
  setNotice_at _ _ _ _

/-- Without an OPEN bill the delta goes to the unbilled amount, as stray flow. -/
theorem attributeDelta_stray (h : openSlot s = none) :
    (attributeDelta sp d s).unbilled = s.unbilled + d ∧ (attributeDelta sp d s).bills = s.bills ∧
      noticeAt 8 (attributeDelta sp d s) = (true, subjectSpout sp) := by
  have open' : openSlot (creditStep sp d s).1 = none := (openSlot_of_view (creditStep_view sp d s)).trans h
  have placed := placeDelta_stray sp d open'
  refine ⟨?_, bills_of_view ?_ h, ?_⟩
  · rw [attributeDelta_reads sp d s keepsPlan_unbilled.pour, placed, ← creditStep_unbilled sp d s]
    rfl
  · rw [attributeDelta_reads sp d s keepsPour_billsView, placed]
    exact creditStep_view sp d s
  · rw [attributeDelta_reads sp d s keepsPour_strayFlow, placed, strayFlow_at]

/-- With an OPEN bill the delta goes to the current hold's amount, or to the unplaced one as stray flow. -/
theorem attributeDelta_billed {i : Fin 8} {b : Bill} (h : openSlot s = some i) (hb : s.bills[i] = some b) :
    (attributeDelta sp d s).unbilled = s.unbilled ∧ ∃ n m : Word16,
      (∀ x, currentHold s sp = some x →
        (attributeDelta sp d s).bills[i] = some { Bill.addHold { b with steps := n } x d with steps := m }) ∧
      (currentHold s sp = none →
        (attributeDelta sp d s).bills[i] = some { Bill.addUnplaced { b with steps := n } d with steps := m } ∧
        noticeAt 8 (attributeDelta sp d s) = (true, subjectSpout sp)) := by
  have ho : b.state = .opened := by
    obtain ⟨c, hc, ho⟩ := openSlot_some h
    rw [hb] at hc
    exact Option.some.inj hc ▸ ho
  have open' : openSlot (creditStep sp d s).1 = some i := (openSlot_of_view (creditStep_view sp d s)).trans h
  obtain ⟨n, hn⟩ := openBill_of_view (creditStep_view sp d s) hb ho
  have final : ∀ c : Bill, c.state = .opened → (placeDelta sp d (creditStep sp d s).1).bills[i] = some c →
      ∃ m, (attributeDelta sp d s).bills[i] = some { c with steps := m } := fun c hc hp =>
    openBill_of_view (attributeDelta_reads sp d s keepsPour_billsView) hp hc
  cases hh : currentHold s sp with
  | some x =>
    have placed := (placeDelta_hold sp d open' ((creditStep_hold sp d s).trans hh)).trans (updateOpenBill_some open' hn _)
    obtain ⟨m, hm⟩ := final (Bill.addHold { b with steps := n } x d) ho (by rw [placed, setBill_getElem, if_pos rfl])
    refine ⟨?_, n, m, fun y hy => ?_, fun hy => nomatch hy⟩
    · rw [attributeDelta_reads sp d s keepsPlan_unbilled.pour, placed]
      exact creditStep_unbilled sp d s
    · rw [← Option.some.inj hy]
      exact hm
  | none =>
    have placed := placeDelta_unplaced sp d open' ((creditStep_hold sp d s).trans hh)
    rw [updateOpenBill_some open' hn] at placed
    obtain ⟨m, hm⟩ := final (Bill.addUnplaced { b with steps := n } d) ho (by
      rw [placed]
      exact (setBill_getElem _ _ _ _).trans (if_pos rfl))
    refine ⟨?_, n, m, fun y hy => (nomatch hy), fun _ => ⟨hm, ?_⟩⟩
    · rw [attributeDelta_reads sp d s keepsPlan_unbilled.pour, placed]
      exact creditStep_unbilled sp d s
    · rw [attributeDelta_reads sp d s keepsPour_strayFlow, placed, strayFlow_at]

end

/-! ## A scale poll's report -/

section
variable {s : State} {sp : Spout} {v : Word32}

/-- A first totalizer, and one that did not move, only write the baseline. -/
theorem scaleReport_quiet (h : (s.baselines.get sp).valid = false ∨ v = (s.baselines.get sp).value) :
    scaleReport sp (some v) s = setBaseline sp { value := v, valid := true } s := by
  unfold scaleReport
  dsimp only
  cases hv : (s.baselines.get sp).valid with
  | false => rfl
  | true =>
    obtain rfl := h.resolve_left (by simp [hv])
    have same : { value := (s.baselines.get sp).value, valid := true } = s.baselines.get sp := by rw [← hv]
    rw [if_neg (by decide), if_pos (sub_self _), same, setBaseline, Pair.set_get]
    rfl

section
variable (hv : (s.baselines.get sp).valid = true) (hne : v ≠ (s.baselines.get sp).value)
include hv hne

theorem scaleReport_moved : scaleReport sp (some v) s =
    if (v - (s.baselines.get sp).value).toNat ≤ s.settings.inUse.maxDelta.toNat then
      attributeDelta sp (v - (s.baselines.get sp).value) (setBaseline sp { value := v, valid := true } s)
    else setNotice .scaleJump (subjectSpout sp) (setBaseline sp { value := v, valid := true } s) := by
  unfold scaleReport
  dsimp only
  rw [hv, if_neg (by decide), if_neg]
  exact fun h => hne (sub_eq_zero.mp h)

end

theorem scaleReport_keeps {k : State → κ} (hk : KeepsPlan k) (hu : ∀ s x, k (s.withUnbilled x) = k s)
    (hb : ∀ s x, k (s.withBaselines x) = k s) (o : Option Word32) : k (scaleReport sp o s) = k s := by
  cases o with
  | none => rfl
  | some v =>
    by_cases h : (s.baselines.get sp).valid = false ∨ v = (s.baselines.get sp).value
    · rw [scaleReport_quiet h]
      exact hb _ _
    · obtain ⟨hv, hne⟩ := not_or.mp h
      rw [scaleReport_moved (by simpa using hv) hne]
      split
      · exact (attributeDelta_keeps sp _ _ hk hu).trans (hb _ _)
      · exact (setNotice_keeps hk _ _ _).trans (hb _ _)

theorem scaleReport_baselines : (scaleReport sp (some v) s).baselines = s.baselines.set sp { value := v, valid := true } := by
  have keeps : KeepsPlan State.baselines := by constructor <;> intros <;> rfl
  by_cases h : (s.baselines.get sp).valid = false ∨ v = (s.baselines.get sp).value
  · rw [scaleReport_quiet h]
    rfl
  · obtain ⟨hv, hne⟩ := not_or.mp h
    rw [scaleReport_moved (by simpa using hv) hne]
    split
    · exact attributeDelta_keeps sp _ _ keeps fun _ _ => rfl
    · rfl

end

/-! ## O43 -/

/-- What O43 says of a valid totalizer `v`, of the state `u` that follows. -/
def Weighed (s : State) (sp : Spout) (v : Word32) (u : State) : Prop :=
  let base := s.baselines.get sp
  u.baselines = s.baselines.set sp { value := v, valid := true } ∧
  (base.valid = false ∨ v = base.value →
    u.bills = s.bills ∧ u.unbilled = s.unbilled ∧ u.plan = s.plan ∧ u.notices = s.notices) ∧
  (base.valid = true → s.settings.inUse.maxDelta.toNat < (v - base.value).toNat →
    u.bills = s.bills ∧ u.unbilled = s.unbilled ∧ u.plan = s.plan ∧
    u.notices.flags[(7 : Fin 13)] = true ∧ u.notices.subjects[(7 : Fin 13)] = subjectSpout sp) ∧
  (base.valid = true → v ≠ base.value → (v - base.value).toNat ≤ s.settings.inUse.maxDelta.toNat →
    (openSlot s = none → u.unbilled = s.unbilled + (v - base.value) ∧ u.bills = s.bills ∧
      u.notices.flags[(8 : Fin 13)] = true ∧ u.notices.subjects[(8 : Fin 13)] = subjectSpout sp) ∧
    ∀ (i : Fin 8) (b : Bill), openSlot s = some i → s.bills[i] = some b → u.unbilled = s.unbilled ∧
      ∃ b' : Bill, u.bills[i] = some b' ∧ b'.number = b.number ∧ b'.state = .opened ∧
        b'.total = b.total + (v - base.value) ∧
        (∀ h : Hold, currentHold s sp = some h → b'.unplaced = b.unplaced ∧
          ∀ k : Hold, b'.holds[k] = if k = h then b.holds[h] + (v - base.value) else b.holds[k]) ∧
        (currentHold s sp = none → b'.unplaced = b.unplaced + (v - base.value) ∧ b'.holds = b.holds ∧
          u.notices.flags[(8 : Fin 13)] = true ∧ u.notices.subjects[(8 : Fin 13)] = subjectSpout sp))

theorem noticeAt_eq {n : Fin 13} {u : State} {v : Word16} (h : noticeAt n u = (true, v)) :
    u.notices.flags[n] = true ∧ u.notices.subjects[n] = v := Prod.mk.inj h

/-- The delta in the OPEN bill's record, with its current hold or without one. -/
theorem attributeDelta_record (sp : Spout) (d : Word32) (s : State) {i : Fin 8} {b : Bill} (h : openSlot s = some i)
    (hb : s.bills[i] = some b) :
    let u := attributeDelta sp d s
    ∃ b' : Bill, u.bills[i] = some b' ∧ b'.number = b.number ∧ b'.state = .opened ∧ b'.total = b.total + d ∧
      (∀ h : Hold, currentHold s sp = some h → b'.unplaced = b.unplaced ∧
        ∀ k : Hold, b'.holds[k] = if k = h then b.holds[h] + d else b.holds[k]) ∧
      (currentHold s sp = none → b'.unplaced = b.unplaced + d ∧ b'.holds = b.holds ∧
        u.notices.flags[(8 : Fin 13)] = true ∧ u.notices.subjects[(8 : Fin 13)] = subjectSpout sp) := by
  have ho : b.state = .opened := by
    obtain ⟨c, hc, ho⟩ := openSlot_some h
    rw [hb] at hc
    exact Option.some.inj hc ▸ ho
  obtain ⟨_, n, m, placed, stray⟩ := attributeDelta_billed sp d s h hb
  cases hh : currentHold s sp with
  | some x =>
    refine ⟨_, placed x hh, rfl, ho, rfl, fun y hy => ⟨rfl, fun k => ?_⟩, fun hy => nomatch hy⟩
    obtain rfl := Option.some.inj hy
    exact set_getElem_fin _ _ _ _
  | none =>
    obtain ⟨record, notice⟩ := stray hh
    exact ⟨_, record, rfl, ho, rfl, fun y hy => (nomatch hy), fun _ => ⟨rfl, rfl, noticeAt_eq notice⟩⟩

theorem scaleReport_weighed (s : State) (sp : Spout) (v : Word32) : Weighed s sp v (scaleReport sp (some v) s) := by
  refine ⟨scaleReport_baselines, fun h => ?_, fun hv jump => ?_, fun hv hne plausible => ?_⟩
  · rw [scaleReport_quiet h]
    exact ⟨rfl, rfl, rfl, rfl⟩
  · have hne : v ≠ (s.baselines.get sp).value := by
      rintro rfl
      rw [sub_self] at jump
      exact absurd jump (Nat.not_lt_zero _)
    rw [scaleReport_moved hv hne, if_neg (Nat.not_le_of_lt jump)]
    exact ⟨rfl, rfl, rfl, noticeAt_eq (setNotice_at _ _ _ _)⟩
  · rw [scaleReport_moved hv hne, if_pos plausible]
    refine ⟨fun none => ?_, fun i b h hb => ⟨?_, attributeDelta_record sp _ _ h hb⟩⟩
    · obtain ⟨unbilled, bills, notice⟩ := attributeDelta_stray sp (v - (s.baselines.get sp).value)
        (setBaseline sp { value := v, valid := true } s) none
      exact ⟨unbilled, bills, noticeAt_eq notice⟩
    · exact (attributeDelta_billed sp _ (setBaseline sp { value := v, valid := true } s) h hb).1

/-- What a scale report leaves alone. -/
structure ScaleLeaves (s u : State) : Prop where
  line : u.line = s.line
  spouts : u.spouts = s.spouts
  zones : u.zones = s.zones
  runc : u.runc = s.runc
  heads : u.heads = s.heads
  gates : u.gates = s.gates
  settings : u.settings = s.settings
  clock : u.clock = s.clock

theorem scaleReport_leaves (sp : Spout) (o : Option Word32) (s : State) : ScaleLeaves s (scaleReport sp o s) := by
  have keeps : KeepsPlan fun s => (s.line, s.spouts, s.zones, s.runc, s.heads, s.gates, s.settings, s.clock) := by
    constructor <;> intros <;> rfl
  have same := scaleReport_keeps (s := s) (sp := sp) keeps (fun _ _ => rfl) (fun _ _ => rfl) o
  simp only [Prod.mk.injEq] at same
  obtain ⟨line, spouts, zones, runc, heads, gates, settings, clock⟩ := same
  exact ⟨line, spouts, zones, runc, heads, gates, settings, clock⟩

/-- Settles O43: a valid totalizer is `Weighed`; without one nothing changes. -/
theorem scalePollEnds : Obligations.ScalePollEnds := by
  unfold Obligations.ScalePollEnds
  intro s c t answer sp ends work
  dsimp only
  have run : exec c s = .next (arbitrate (scaleReport sp (answer.bind readScale) (lineFreed answer s))) := by
    rw [exec_ends ends, outcomeTaken, work]
    rfl
  obtain ⟨line, spouts, zones, runc, heads, gates, settings, clock⟩ :=
    scaleReport_leaves sp (answer.bind readScale) (lineFreed answer s)
  obtain ⟨freed, freedHeads, _⟩ := lineFreed_leaves answer s
  have freedLine : (lineFreed answer s).line = { s.line with engine := .free } := by cases answer <;> rfl
  have read := bind_some readScale_some answer
  refine ⟨_, run, line.trans freedLine, spouts.trans freed.spouts, zones.trans freed.zones, runc.trans freed.runc,
    heads.trans freedHeads, gates.trans freed.gates, settings.trans freed.settings, clock.trans freed.clock,
    fun none => ?_, fun v h => ?_⟩
  · have unread : answer.bind readScale = .none := Option.eq_none_iff_forall_ne_some.mpr fun v h => by
      obtain ⟨_, ha, rfl⟩ := (read v).mp h
      exact none v ha
    rw [unread]
    cases answer <;> exact ⟨rfl, rfl, rfl, rfl⟩
  · rw [(read v).mpr ⟨_, h, rfl⟩, h]
    exact scaleReport_weighed (lineFreed (some (0 :: (bytes32 v ++ [0]))) s) sp v

end Sys2Proof.Machine
end

section
/-! The end of a field frame's transmission, HALT entry, and the end of an order's attempt (R18, R22 to R25, R105, R106,
R179, R180). -/

namespace Sys2Proof.Machine

/-! ## The end of a transmission (R18, R25) -/

/-- SENT is the all-stop status, unless an ALL_STOP waits (log 29). -/
theorem allStopSent_eq (s : State) : allStopSent s = s.withRunc
    { s.runc with allStop := if ∃ o ∈ s.orders, o.kind = .allStop then s.runc.allStop else some .sent } := by
  have waits : (s.orders.any fun o => o.kind == .allStop) = true ↔ ∃ o ∈ s.orders, o.kind = .allStop := by simp
  unfold allStopSent
  by_cases h : ∃ o ∈ s.orders, o.kind = .allStop
  · rw [if_pos (waits.mpr h), if_pos h]
    rfl
  · rw [if_neg (mt waits.mp h), if_neg h]

/-- Settles O37: an ALL_STOP awaits no answer, every other frame does. -/
theorem fieldFrameSent : Obligations.FieldFrameSent := by
  unfold Obligations.FieldFrameSent
  intro s t f sending
  have run : exec .fieldFrameSent s = .next (fieldFrameEnd s) := rfl
  rw [run, fieldFrameEnd, sending]
  refine ⟨fun p n work => ?_, fun other => ?_⟩
  · dsimp only
    rw [work]
    dsimp only
    rw [allStopSent_eq]
    rfl
  · dsimp only
    split
    · rename_i p n work
      exact absurd work (other p n)
    · rfl

/-! ## HALT entry (R179) -/

theorem postGate_eq (sp : Spout) (x : Setting) (s : State) : postGate sp x s = s.withOrders (withGateOrder s sp x s.orders) := by
  unfold postGate withGateOrder
  split <;> rfl

theorem closeUnlessClosed_eq (sp : Spout) (s : State) : closeUnlessClosed sp s = s.withOrders (closedOrders sp s) := by
  unfold closeUnlessClosed closedOrders
  split
  · rfl
  · exact postGate_eq sp 0 s

theorem holdStep_eq (sp : Spout) (s : State) : holdStep sp s = s.withPlan (heldPlan sp s) := by
  unfold holdStep heldPlan
  split <;> rfl

/-- GATE's and PSEQ's work for one spout at HALT entry, judged by the state before. -/
theorem haltSpout_eq {before s : State} (hs : s.settings = before.settings) (sp : Spout) : haltSpout before sp s =
    if fitted before sp then
      (s.withOrders (closedOrders sp s)).withPlan (if blockCause before sp = 0 then heldPlan sp s else s.plan)
    else s := by
  have same : fitted s sp = fitted before sp := by
    unfold fitted
    rw [hs]
  have held : (if blocked before sp then s.withOrders (closedOrders sp s)
      else holdStep sp (s.withOrders (closedOrders sp s))) =
      (s.withOrders (closedOrders sp s)).withPlan (if blockCause before sp = 0 then heldPlan sp s else s.plan) := by
    rw [blocked_eq, holdStep_eq]
    by_cases h : blockCause before sp = 0
    · rw [if_neg (by simpa using h), if_pos h]
      rfl
    · rw [if_pos (by simpa using h), if_neg h]
      rfl
  unfold haltSpout
  dsimp only
  rw [same, closeUnlessClosed_eq, held]

theorem haltSpout_keeps {κ : Type} {k : State → κ} (hk : KeepsPlan k) (before : State) (sp : Spout) (s : State) :
    k (haltSpout before sp s) = k s := by
  unfold haltSpout
  dsimp only
  split
  · split
    · exact closeUnlessClosed_keeps hk s sp
    · rw [holdStep_keeps hk, closeUnlessClosed_keeps hk]
  · rfl

theorem preemptHalted_eq (s : State) : preemptHalted s =
    (haltedEntries s).foldl (fun t e => withdrawMove e t) (refusedAll (haltedEntries s) .halted 0 s) := by
  unfold preemptHalted
  rw [preempt_refusedAll]
  rfl

theorem keepsPlan_settings : KeepsPlan State.settings := by constructor <;> intros <;> rfl

/-- The part at HALT entry before GATE and PSEQ act: the run state, the cause, the all-stop status and the ALL_STOP. -/
def halting (cause : HaltCause) (s : State) : State :=
  (s.withRunc { state := .halt, haltCause := some cause, allStop := some .pending }).withOrders
    (if s.orders.any fun o => o.station == 63 then s.orders
    else s.orders ++ [{ station := 63, kind := .allStop, poster := .runc }])

theorem haltEntry_eq (cause : HaltCause) (s : State) : haltEntry cause s =
    setNotice .halted (subjectByte cause.byte)
      (preemptHalted (haltSpout s .b (haltSpout s .a (halting cause s)))) := rfl

theorem haltStopped_eq (cause : HaltCause) (s : State) : haltStopped cause s =
    refusedAll (haltedEntries s) .halted 0 (haltSpout s .b (haltSpout s .a (halting cause s))) := by
  have first : (halting cause s).settings = s.settings := rfl
  have second : (haltSpout s .a (halting cause s)).settings = s.settings := haltSpout_keeps keepsPlan_settings _ _ _
  rw [haltSpout_eq second, haltSpout_eq first]
  rfl

/-- The steps of HALT entry are those of R179. -/
theorem haltEntry_entered (cause : HaltCause) (s : State) : haltEntry cause s = haltEntered cause s := by
  have entries : haltedEntries (haltSpout s .b (haltSpout s .a (halting cause s))) = haltedEntries s := by
    unfold haltedEntries
    rw [haltSpout_keeps keepsPlan_relayQueue, haltSpout_keeps keepsPlan_relayQueue]
    rfl
  rw [haltEntry_eq, preemptHalted_eq, entries, haltEntered, haltStopped_eq]

/-! ## An order's attempt ends (R22 to R24, R105, R106) -/

/-- The status of an answer is REJECT. -/
theorem status_reject (answer : Option (List Byte)) : answer.map statusOf = some .reject ↔ answeredReject answer := by
  unfold answeredReject
  rcases answer with _ | (_ | ⟨b, l⟩)
  · simp
  · simp [statusOf]
  · by_cases h3 : b = 3#8
    · simp [statusOf, h3]
    · by_cases h0 : b = 0#8
      · simp [statusOf, h0]
      · by_cases h1 : b = 1#8
        · simp [statusOf, h1]
        · simp [statusOf, h0, h1, h3]

section
variable {answer : Option (List Byte)} (k : OrderKind) (poster : Poster) (station : Byte) (n : Nat) (s : State)

theorem orderEnd_ok (h : answeredOk answer) : orderEnd k poster station n answer s = orderOk k s := by
  rw [orderEnd, (status_ok answer).mpr h]

theorem orderEnd_reject (h : answeredReject answer) :
    orderEnd k poster station n answer s = orderFailed k station s := by
  rw [orderEnd, (status_reject answer).mpr h]

/-- A failed attempt is superseded, sent again, or exhausted. -/
theorem orderEnd_failed (hok : ¬ answeredOk answer) (hr : ¬ answeredReject answer) :
    orderEnd k poster station n answer s =
      if ∃ o ∈ s.orders, o.station = station then s
      else if n < 3 then orderSent k poster station (n + 1) s else orderFailed k station s := by
  have newer : (s.orders.any fun o => o.station == station) = true ↔ ∃ o ∈ s.orders, o.station = station := by simp
  have failed : orderEnd k poster station n answer s = attemptFailed k poster station n s := by
    unfold orderEnd
    split
    · rename_i h
      exact absurd ((status_ok answer).mp h) hok
    · rename_i h
      exact absurd ((status_reject answer).mp h) hr
    · rfl
  rw [failed, attemptFailed, startOrder_sent]
  simp only [newer]

end

/-- A sent order is on the line, where the arbiter leaves it. -/
theorem arbitrate_orderSent (k : OrderKind) (poster : Poster) (station : Byte) (n : Nat) (s : State) :
    arbitrate (orderSent k poster station n s) = orderSent k poster station n s := by
  have sending : (orderSent k poster station n s).line.engine =
      .sending { work := .order k poster n, station, fieldTag := s.line.fieldTag }
        (orderFrame k station s.line.fieldTag) := by
    unfold orderSent
    dsimp only
    split
    · split
      · rfl
      · rw [activationTest_keeps keepsTravel_line.toKeepsPlan]
        rfl
    · rfl
  exact arbitrate_idle (.inl (by rw [sending]; simp))

/-- A gate order that fails: UNSURE with its notice, then a close after a setting above 0, and HALT entry after a close in
RUN. -/
theorem gateOrderFailed_eq (sp : Spout) (x : Setting) (s : State) : gateOrderFailed sp x s =
    let v := setNotice .gateUnsure (subjectSpout sp)
      (s.withGates (s.gates.set sp { s.gates.get sp with state := .rest .unsure }))
    activationTest
      (if x ≠ 0 then v.withOrders (withGateOrder v sp 0 s.orders)
      else if s.runc.state = .run then haltEntered .gateFailure v
      else v) := by
  unfold gateOrderFailed closeFailed
  dsimp only
  by_cases hx : x = 0
  · rw [if_pos hx, if_neg (not_not_intro hx), haltEntry_entered]
    rfl
  · rw [if_neg hx, if_pos hx, postClose, postGate_eq]
    rfl

theorem lineFreed_kept (answer : Option (List Byte)) (s : State) : (lineFreed answer s).orders = s.orders ∧
    (lineFreed answer s).gates = s.gates ∧ (lineFreed answer s).runc = s.runc := by
  cases answer <;> exact ⟨rfl, rfl, rfl⟩

/-- Settles O40: each way an attempt ends is one branch of `orderEnd`. -/
theorem orderEnds : Obligations.OrderEnds := by
  unfold Obligations.OrderEnds
  intro s c t answer k poster n ends work
  dsimp only
  obtain ⟨orders, gates, runc⟩ := lineFreed_kept answer s
  have run : exec c s = .next (arbitrate (orderEnd k poster t.station n answer (lineFreed answer s))) := by
    rw [exec_ends ends, outcomeTaken, work]
  have refused : answeredReject answer ∨ ((¬ answeredOk answer ∧ ¬ answeredReject answer) ∧
      (¬ ∃ o ∈ s.orders, o.station = t.station) ∧ 3 ≤ n) →
      exec c s = .next (arbitrate (orderFailed k t.station (lineFreed answer s))) := by
    rintro (h | ⟨⟨hok, hr⟩, newest, last⟩)
    · rw [run, orderEnd_reject _ _ _ _ _ h]
    · rw [run, orderEnd_failed _ _ _ _ _ hok hr, orders, if_neg newest, if_neg (by omega)]
  refine ⟨fun sp hk h => ?_, fun sp hk h => ?_, fun sp x hk h => ?_, fun sp x hk h => ?_, fun h newer => ?_,
    fun h newest again => ?_⟩
  · rw [run, orderEnd_ok _ _ _ _ _ h, hk]
    rfl
  · rw [refused h, hk]
    rfl
  · rw [run, orderEnd_ok _ _ _ _ _ h, hk, ← gates]
    rfl
  · rw [refused h, hk, orderFailed, gateOrderFailed_eq, orders, gates, runc]
  · rw [run, orderEnd_failed _ _ _ _ _ h.1 h.2, orders, if_pos newer]
  · rw [run, orderEnd_failed _ _ _ _ _ h.1 h.2, orders, if_neg newest, if_pos again, arbitrate_orderSent]

end Sys2Proof.Machine
end

section
/-! Polls made due, the start of a sample cycle, the timers and the clock (R26, R27, R85 to R88, R161). -/

namespace Sys2Proof.Machine

/-! ## Polls made due (R26, R27) -/

/-- The polls of one kind for spouts' stations, in the order of the spouts. -/
def stationPolls (s : State) (station : StationKind) (kind : Spout → PollKind) (spouts : List Spout) : List Poll :=
  spouts.filterMap fun sp => (stationOf s station sp).map fun st => { station := st, kind := kind sp }

theorem entryPolls_eq (s : State) (spouts : List Spout) : entryPolls s spouts =
    stationPolls s .spoutDrive .position spouts ++ stationPolls s .beltScale .scale spouts := rfl

theorem mem_stationPolls {s : State} {station : StationKind} {kind : Spout → PollKind} {spouts : List Spout} {p : Poll} :
    p ∈ stationPolls s station kind spouts ↔
      ∃ sp ∈ spouts, p.kind = kind sp ∧ stationOf s station sp = some p.station := by
  unfold stationPolls
  rw [List.mem_filterMap]
  refine exists_congr fun sp => and_congr_right fun _ => ?_
  rw [Option.map_eq_some_iff]
  constructor
  · rintro ⟨st, found, rfl⟩
    exact ⟨rfl, found⟩
  · rintro ⟨same, found⟩
    exact ⟨p.station, found, by rw [← same]⟩

theorem mem_fittedSpouts {s : State} {sp : Spout} : sp ∈ fittedSpouts s ↔ fitted s sp = true := by
  unfold fittedSpouts
  rw [List.mem_filter]
  exact and_iff_right (by cases sp <;> decide)

theorem polled_congr {s t : State} (h : t.line = s.line) : polled t = polled s := by
  funext q p
  exact polled_of_line h q p

theorem polled_withPolls (s : State) (q : List Poll) : polled (s.withPolls q) = polled s := polled_congr rfl

/-- Polls made due one after the other write only the poll set. -/
theorem pollDue_foldl (l : List Poll) (s : State) :
    l.foldl (fun t p => pollDue p t) s = s.withPolls (l.foldl (polled s) s.polls) := by
  induction l generalizing s with
  | nil => rfl
  | cons p l ih =>
    rw [List.foldl_cons, List.foldl_cons, pollDue_polled, ih, polled_withPolls]
    rfl

/-- A due-maker that asks each spout's station for its poll makes the spouts' polls due, one after the other. -/
theorem spoutsDue_foldl {station : StationKind} {kind : Spout → PollKind} {due : Spout → State → State}
    (hdue : ∀ sp t, due sp t = (stationPolls t station kind [sp]).foldl (fun t p => pollDue p t) t)
    (spouts : List Spout) (s : State) : spouts.foldl (fun t sp => due sp t) s =
      s.withPolls ((stationPolls s station kind spouts).foldl (polled s) s.polls) := by
  induction spouts generalizing s with
  | nil => rfl
  | cons sp spouts ih =>
    have split : stationPolls s station kind (sp :: spouts) =
        stationPolls s station kind [sp] ++ stationPolls s station kind spouts :=
      List.filterMap_append (l := [sp])
    rw [List.foldl_cons, ih, hdue, pollDue_foldl, polled_withPolls, split, List.foldl_append]
    rfl

theorem positionPolls_eq (s : State) : positionPolls s =
    s.withPolls ((stationPolls s .spoutDrive .position (fittedSpouts s)).foldl (polled s) s.polls) :=
  spoutsDue_foldl (fun sp t => by
    unfold positionDue stationPolls
    rw [List.filterMap_cons]
    cases stationOf t .spoutDrive sp <;> rfl) _ s

theorem scalePolls_eq (s : State) : scalePolls s =
    s.withPolls ((stationPolls s .beltScale .scale (fittedSpouts s)).foldl (polled s) s.polls) :=
  spoutsDue_foldl (fun sp t => by
    unfold scaleDue stationPolls
    rw [List.filterMap_cons]
    cases stationOf t .beltScale sp <;> rfl) _ s

/-- What the poll set holds after polls are made due: what it held, nothing but the polls asked for, and for each of these a
poll of its station, where none is on the line. -/
theorem polled_foldl (s : State) (l q : List Poll) :
    (∀ p ∈ q, p ∈ l.foldl (polled s) q) ∧
    (∀ p ∈ l.foldl (polled s) q, p ∈ q ∨ p ∈ l) ∧
    ∀ p ∈ l, pollOnLine s p.station = true ∨ ∃ x ∈ l.foldl (polled s) q, x.station = p.station := by
  induction l generalizing q with
  | nil => exact ⟨fun _ h => h, fun _ h => .inl h, fun _ h => by cases h⟩
  | cons a l ih =>
    obtain ⟨kept, only, asked⟩ := ih (polled s q a)
    have grows : ∀ p ∈ q, p ∈ polled s q a := fun p hp => by
      unfold polled
      split
      · exact hp
      · exact List.mem_append_left _ hp
    have adds : ∀ p ∈ polled s q a, p ∈ q ∨ p = a := fun p hp => by
      unfold polled at hp
      split at hp
      · exact .inl hp
      · simpa using hp
    have served : pollOnLine s a.station = true ∨ ∃ x ∈ polled s q a, x.station = a.station := by
      unfold polled
      split
      · rename_i h
        exact h.symm
      · exact .inr ⟨a, by simp, rfl⟩
    rw [List.foldl_cons]
    refine ⟨fun p hp => kept p (grows p hp), fun p hp => ?_, fun p hp => ?_⟩
    · rcases only p hp with h | h
      · exact (adds p h).imp_right fun e => List.mem_cons.mpr (.inl e)
      · exact .inr (List.mem_cons_of_mem _ h)
    · rcases List.mem_cons.mp hp with rfl | h
      · exact served.imp_right fun ⟨x, hx, e⟩ => ⟨x, kept x hx, e⟩
      · exact asked p h

/-- A poll timer's polls in the poll set. -/
theorem stationPolls_due (s : State) (station : StationKind) (kind : Spout → PollKind) :
    let polls := (stationPolls s station kind (fittedSpouts s)).foldl (polled s) s.polls
    (∀ p ∈ s.polls, p ∈ polls) ∧
    (∀ p ∈ polls, p ∈ s.polls ∨ ∃ sp, fitted s sp = true ∧ p.kind = kind sp ∧ stationOf s station sp = some p.station) ∧
    ∀ sp st, fitted s sp = true → stationOf s station sp = some st →
      pollOnLine s st = true ∨ ∃ p ∈ polls, p.station = st := by
  obtain ⟨kept, only, asked⟩ := polled_foldl s (stationPolls s station kind (fittedSpouts s)) s.polls
  refine ⟨kept, fun p hp => (only p hp).imp_right fun h => ?_, fun sp st hf found => ?_⟩
  · obtain ⟨sp, mem, same, found⟩ := mem_stationPolls.mp h
    exact ⟨sp, mem_fittedSpouts.mp mem, same, found⟩
  · exact asked ⟨st, kind sp⟩ (mem_stationPolls.mpr ⟨sp, mem_fittedSpouts.mpr hf, rfl, found⟩)

/-! ## A cycle starts (R85, R86) -/

/-- The present head of lowest index. -/
def firstPresent (s : State) : Option HeadIx := (List.finRange 16).find? fun i : HeadIx => (s.heads[i]).present

theorem firstPresent_none {s : State} (h : ∀ i : HeadIx, (s.heads[i]).present = false) : firstPresent s = none :=
  List.find?_eq_none.mpr fun i _ => by rw [h i]; decide

theorem firstPresent_least {s : State} {i : HeadIx} (hi : (s.heads[i]).present = true)
    (least : ∀ j : HeadIx, j < i → (s.heads[j]).present = false) : firstPresent s = some i :=
  finRange_find?_least hi fun j hj => by rw [least j hj]; decide

theorem firstDustPoll_eq (s : State) : firstDustPoll s =
    match firstPresent s with
    | some i => [{ station := (s.heads[i]).station, kind := .dust i }]
    | none => [] := rfl

/-- A new cycle asks for the first present head; with none present it is over at once. -/
theorem startCycle_eq (s : State) : startCycle s = ((s.withHeads (unsampled s.heads)).withCycle
    { state := if (firstPresent s).isSome then .cycling else .idle, pendingHead := firstPresent s, overrun := false,
      timer := some s.settings.inUse.cyclePeriod.toNat }).withPolls ((firstDustPoll s).foldl (polled s) s.polls) := by
  have opened : openCycle s = (s.withHeads (unsampled s.heads)).withCycle (cycleOpened s) := by
    rw [unsampled_eq]
    rfl
  have next : nextHead (openCycle s) = firstPresent s := by
    rw [opened]
    show (List.finRange 16).find? (fun i : HeadIx => ((unsampled s.heads)[i]).present && !((unsampled s.heads)[i]).sampled) = _
    unfold firstPresent
    congr 1
    funext i
    rw [unsampled_getElem]
    simp [Head.marked]
  unfold startCycle
  rw [next, opened, firstDustPoll_eq]
  cases firstPresent s with
  | none => rfl
  | some i =>
    have station : (((s.withHeads (unsampled s.heads)).withCycle (cycleOpened s)).heads[i]).station = (s.heads[i]).station :=
      (congrArg Head.station (unsampled_getElem s.heads i)).trans rfl
    dsimp only [Option.isSome, List.foldl]
    rw [askDust, pollDue_polled, station, polled_of_line (s := s)]
    · rfl
    · rfl

/-! ## The expiries (R27, R88, R161) -/

section
variable {s : State}

theorem exec_positionTimer_stopped (h : s.timers.position = none) : exec .positionTimerExpiry s = .next s := by
  have run : exec .positionTimerExpiry s = execPositionTimerExpiry s := rfl
  rw [run, execPositionTimerExpiry, h]

theorem exec_positionTimer_runs (h : s.timers.position ≠ none) : exec .positionTimerExpiry s = .next (arbitrate
    ((s.withTimers { s.timers with position := some s.settings.inUse.positionPeriod.toNat }).withPolls
      ((stationPolls s .spoutDrive .position (fittedSpouts s)).foldl (polled s) s.polls))) := by
  have run : exec .positionTimerExpiry s = execPositionTimerExpiry s := rfl
  obtain ⟨n, hn⟩ := Option.ne_none_iff_exists'.mp h
  rw [run, execPositionTimerExpiry, hn]
  dsimp only
  rw [positionPolls_eq]
  rfl

theorem exec_scaleTimer_stopped (h : s.timers.scale = none) : exec .scaleTimerExpiry s = .next s := by
  have run : exec .scaleTimerExpiry s = execScaleTimerExpiry s := rfl
  rw [run, execScaleTimerExpiry, h]

theorem exec_scaleTimer_runs (h : s.timers.scale ≠ none) : exec .scaleTimerExpiry s = .next (arbitrate
    ((s.withTimers { s.timers with scale := some s.settings.inUse.scalePeriod.toNat }).withPolls
      ((stationPolls s .beltScale .scale (fittedSpouts s)).foldl (polled s) s.polls))) := by
  have run : exec .scaleTimerExpiry s = execScaleTimerExpiry s := rfl
  obtain ⟨n, hn⟩ := Option.ne_none_iff_exists'.mp h
  rw [run, execScaleTimerExpiry, hn]
  dsimp only
  rw [scalePolls_eq]
  rfl

theorem exec_cycleTimer_stopped (h : s.cycle.timer = none) : exec .cycleTimerExpiry s = .next s := by
  have run : exec .cycleTimerExpiry s = execCycleTimerExpiry s := rfl
  rw [run, execCycleTimerExpiry, h]

theorem exec_cycleTimer_runs (h : s.cycle.timer ≠ none) :
    exec .cycleTimerExpiry s = .next (arbitrate (cycleExpiry s)) := by
  have run : exec .cycleTimerExpiry s = execCycleTimerExpiry s := rfl
  obtain ⟨n, hn⟩ := Option.ne_none_iff_exists'.mp h
  rw [run, execCycleTimerExpiry, hn]

theorem cycleExpiry_cycling (h : s.cycle.state = .cycling) {i : HeadIx} (hi : s.cycle.pendingHead = some i) :
    cycleExpiry s = setNotice .dustOverrun (BitVec.ofNat 16 i.val) (s.withCycle
      { s.cycle with timer := some s.settings.inUse.cyclePeriod.toNat, overrun := true }) := by
  unfold cycleExpiry overrunSubject
  rw [h, hi]
  rfl

theorem cycleExpiry_idle (h : s.cycle.state = .idle) : cycleExpiry s = startCycle (reloadCycle s) := by
  unfold cycleExpiry
  rw [h]

end

/-- Settles O45: a poll timer's polls join the poll set, the cycle timer starts a cycle or marks the overrun. -/
theorem timersAndClock : Obligations.TimersAndClock := by
  unfold Obligations.TimersAndClock
  refine ⟨fun s => ⟨exec_positionTimer_stopped, fun runs => ⟨_, exec_positionTimer_runs runs, stationPolls_due s _ _⟩⟩,
    fun s => ⟨exec_scaleTimer_stopped, fun runs => ⟨_, exec_scaleTimer_runs runs, stationPolls_due s _ _⟩⟩,
    fun s => ⟨exec_cycleTimer_stopped, fun runs cycling i pending => ?_, fun runs idle => ?_⟩, fun _ => rfl,
    fun tag minutes s taken => ?_⟩
  case refine_1 => rw [exec_cycleTimer_runs runs, cycleExpiry_cycling cycling pending]
  case refine_2 =>
    have first : firstPresent (reloadCycle s) = firstPresent s := rfl
    refine ⟨startCycle (reloadCycle s), by rw [exec_cycleTimer_runs runs, cycleExpiry_idle idle], ?_⟩
    rw [startCycle_eq, first]
    refine ⟨rfl, rfl, unsampled_getElem s.heads, fun none => ?_, fun i present least => ?_, rfl, rfl, rfl, rfl⟩
    · rw [firstPresent_none none]
      exact ⟨rfl, rfl⟩
    · rw [firstPresent_least present least]
      exact ⟨rfl, rfl⟩
  case refine_3 =>
    have run : exec (.setClock tag minutes) s = .next (receive (replied tag (setClock minutes)) s) := rfl
    rw [run, receive_taken taken]
    rfl

end Sys2Proof.Machine
end

section
/-! What the activation test leaves, and when it makes no step ACTIVE (R128, R131, R133, R134, R148, R149). -/

namespace Sys2Proof.Machine

/-! ## What the activation test leaves (R128) -/

/-- The part without what the activation test writes: orders, the plan, the account steps, the stacks, bills and notices. -/
def withoutPlan (s : State) : State :=
  { s with
    orders := []
    plan := []
    stepCounter := 0
    account := { a := none, b := none }
    stack := StackUnit.initial
    bills := State.reset.bills
    notices := State.reset.notices }

theorem keepsPlan_withoutPlan : KeepsPlan withoutPlan := by constructor <;> intros <;> rfl

/-- Every field that `withoutPlan` shows is the same after the activation test. -/
theorem activationTest_withoutPlan (s : State) : withoutPlan (activationTest s) = withoutPlan s :=
  activationTest_keeps keepsPlan_withoutPlan s

/-! ## No step becomes ACTIVE while no fitted spout is SETTLED (R128, R131) -/

/-- No step is ACTIVE. -/
def NoneActive (s : State) : Prop := ∀ r ∈ s.plan, r.state ≠ .active

/-- From a part without an ACTIVE step the work posts no order and makes no step ACTIVE. -/
def Quiet (s t : State) : Prop := NoneActive s → t.orders = s.orders ∧ NoneActive t

theorem Quiet.refl (s : State) : Quiet s s := fun h => ⟨rfl, h⟩

theorem Quiet.trans {s t u : State} (h : Quiet s t) (k : Quiet t u) : Quiet s u := fun none => by
  obtain ⟨ho, ht⟩ := h none
  obtain ⟨ko, hu⟩ := k ht
  exact ⟨ko.trans ho, hu⟩

theorem Quiet.of_same {s t : State} (ho : t.orders = s.orders) (hp : t.plan = s.plan) : Quiet s t := fun none =>
  ⟨ho, fun r hr => none r (hp ▸ hr)⟩

section
variable (s : State)

theorem setNotice_quiet (n : Notice) (v : Word16) : Quiet s (setNotice n v s) := .of_same rfl rfl

theorem countDoneStep_quiet : Quiet s (countDoneStep s) := by
  refine .of_same ?_ (updateOpenBill_plan s _)
  unfold countDoneStep updateOpenBill
  split
  · split <;> rfl
  · rfl

theorem setStepState_quiet (n : Word16) {x : StepState} (hx : x ≠ .active) : Quiet s (setStepState n x s) :=
  fun none => by
    refine ⟨rfl, fun r hr => ?_⟩
    obtain ⟨q, hq, rfl⟩ := List.mem_map.mp hr
    split
    · exact hx
    · exact none q hq

theorem joinPlan_quiet {sp : Spout} {req : TrimRequest} {place : StepRec → List StepRec → List StepRec}
    (hp : ∀ x l, (place x l).Perm (x :: l)) : Quiet s (joinPlan (trimRecord sp req) place s) := fun none => by
  refine ⟨rfl, fun r hr => ?_⟩
  rcases List.mem_cons.mp ((hp _ _).mem_iff.mp hr) with rfl | old
  · exact fun h => by cases h
  · exact none r old

theorem pushEntry_quiet (sp : Spout) (e : StackEntry) : Quiet s (pushEntry sp e s) := by
  unfold pushEntry
  split <;> exact .of_same rfl rfl

theorem dropTop_quiet (sp : Spout) : Quiet s (dropTop sp s) := by
  unfold dropTop
  split
  · split <;> exact .of_same rfl rfl
  · exact .of_same rfl rfl

theorem pushRunning_quiet (sp : Spout) {r : StepRec} (hr : r.state ≠ .active) (req : TrimRequest) :
    Quiet s (pushRunning sp r req s) := by
  unfold pushRunning
  dsimp only
  rw [if_neg hr]
  exact (pushEntry_quiet s sp _).trans ((setStepState_quiet _ _ (by decide)).trans
    (joinPlan_quiet _ fun x l => insertBefore_perm _ x l))

theorem markDone_quiet (n : Word16) : Quiet s (markDone n s) :=
  (setStepState_quiet s n (by decide)).trans ((setNotice_quiet _ _ _).trans (countDoneStep_quiet _))

theorem runningStep_some {sp : Spout} {r : StepRec} (h : runningStep s sp = some r) :
    fitted s sp = true ∧ r ∈ s.plan ∧ r.spout = sp := by
  have found : ∀ {p : StepRec → Bool}, (s.plan.find? fun q => q.spout == sp && p q) = some r → r ∈ s.plan ∧ r.spout = sp :=
    fun h => by
      have hit := List.find?_some h
      rw [Bool.and_eq_true_iff, beq_iff_eq] at hit
      exact ⟨List.mem_of_find?_eq_some h, hit.1⟩
  unfold runningStep at h
  split at h
  · rename_i isFitted
    refine ⟨isFitted, ?_⟩
    split at h
    · rename_i q pours
      cases h
      exact found pours
    · exact found h
  · cases h

theorem serveLatch_quiet (sp : Spout) : Quiet s (serveLatch sp s) := by
  have clear : ∀ t, Quiet t (clearLatch sp t) := fun t => .of_same rfl rfl
  unfold serveLatch
  split
  · exact .refl s
  · split
    · exact (clear _).trans (setNotice_quiet _ _ _)
    · dsimp only
      refine Quiet.trans ?_ ((clear _).trans (setNotice_quiet _ _ _))
      split
      · rename_i r hr
        obtain ⟨_, mem, _⟩ := runningStep_some s hr
        exact fun none => pushRunning_quiet s sp (none r mem) _ none
      · exact joinPlan_quiet s fun x l => List.perm_append_singleton x l

theorem serveShared_quiet : Quiet s (serveShared s) := by
  unfold serveShared
  split
  · dsimp only
    split
    · exact (serveLatch_quiet s _).trans (serveLatch_quiet _ _)
    · exact serveLatch_quiet s _
  · exact .refl s

theorem popCascade_quiet (sp : Spout) (fuel : Nat) (n : Word16) : Quiet s (popCascade sp fuel n s) := by
  induction fuel generalizing n s with
  | zero => exact .refl s
  | succ fuel ih =>
    unfold popCascade
    split
    · exact .refl s
    · rename_i e _
      have popped : Quiet s (setStepState e.suspended .waiting (dropTop sp s)) :=
        (dropTop_quiet s sp).trans (setStepState_quiet _ _ (by decide))
      split
      · dsimp only
        split
        · exact popped
        · split
          · split
            · exact popped.trans ((markDone_quiet _ _).trans (ih _ _))
            · exact popped.trans (markDone_quiet _ _)
          · exact popped
      · exact .refl s

theorem trimEnded_quiet (sp : Spout) (n : Word16) : Quiet s (trimEnded sp n s) := by
  have popped := popCascade_quiet s sp 4 n
  unfold trimEnded
  dsimp only
  split
  · refine Quiet.trans ?_ (serveShared_quiet _)
    split
    · exact popped.trans (serveLatch_quiet _ _)
    · exact popped
  · split
    · exact popped.trans (serveLatch_quiet _ _)
    · exact popped

theorem enterDone_quiet {r : StepRec} (hr : r.state ≠ .active) : Quiet s (enterDone r s) := by
  unfold enterDone afterEnd
  dsimp only
  rw [if_neg hr]
  have told := (setStepState_quiet s r.number (x := .done) (by decide)).trans
    ((setNotice_quiet _ .stepDone r.number).trans (countDoneStep_quiet _))
  split
  · exact told.trans (trimEnded_quiet _ _ _)
  · exact told

/-- No fitted spout is SETTLED. -/
def Unsettled (s : State) : Prop := ∀ sp, fitted s sp = true → (s.spouts.get sp).state ≠ .settled

theorem keepsPlan_unsettled : KeepsPlan Unsettled := by constructor <;> intros <;> rfl

theorem testSpout_quiet (h : Unsettled s) (sp : Spout) : Quiet s (testSpout sp s).1 := by
  unfold testSpout
  split
  · exact .refl s
  · rename_i r hr
    obtain ⟨isFitted, _, spout⟩ := runningStep_some s hr
    have waits : mayPour s r = false := by simp [mayPour, settledOver, spout, h sp isFitted]
    rw [waits]
    split
    · rename_i state
      split
      · exact enterDone_quiet s (by rw [state]; decide)
      · exact .refl s
    · split <;> exact .refl s

theorem activationRounds_quiet (fuel : Nat) (h : Unsettled s) : Quiet s (activationRounds fuel s) := by
  have kept : ∀ sp t, Unsettled t → Unsettled (testSpout sp t).1 := fun sp t ht =>
    (testSpout_keeps keepsPlan_unsettled t sp).mpr ht
  induction fuel generalizing s with
  | zero => exact .refl s
  | succ fuel ih =>
    have unsettledA := kept .a s h
    have tests := (testSpout_quiet s h .a).trans (testSpout_quiet _ unsettledA .b)
    unfold activationRounds
    dsimp only
    split
    · exact tests.trans (ih _ (kept .b _ unsettledA))
    · exact tests

theorem activationTest_quiet (h : Unsettled s) : Quiet s (activationTest s) := activationRounds_quiet s _ h

end

end Sys2Proof.Machine
end

section
/-! Entry to RUN from CONFIG and from HALT (R36, R153, R176, R177, R181, R182). -/

namespace Sys2Proof.Machine

/-! ## Entry to RUN up to the activation test (R27, R153, R177, R181, R182) -/

/-- The poll timers start, and the fitted spouts' first polls are due. -/
theorem startTimers_eq (s : State) : startTimers s = (s.withTimers
    { position := some s.settings.inUse.positionPeriod.toNat, scale := some s.settings.inUse.scalePeriod.toNat }).withPolls
      ((entryPolls s (fittedSpouts s)).foldl (polled s) s.polls) := by
  rw [startTimers, positionPolls_eq, scalePolls_eq, polled_withPolls, entryPolls_eq, List.foldl_append]
  rfl

/-- The spouts a spouts-fitted value names. -/
def spoutsOf (x : Settings) : List Spout := if x.spoutsFitted = 2 then [.a, .b] else [.a]

theorem fittedSpouts_eq (s : State) : fittedSpouts s = spoutsOf s.settings.inUse := by
  unfold fittedSpouts bothSpouts spoutsOf fitted
  by_cases h : s.settings.inUse.spoutsFitted = 2 <;> simp [h]

theorem postClose_foldl (spouts : List Spout) (s : State) : spouts.foldl (fun t sp => postClose sp t) s =
    s.withOrders (spouts.foldl (fun q sp => withGateOrder s sp 0 q) s.orders) := by
  induction spouts generalizing s with
  | nil => rfl
  | cons sp spouts ih =>
    rw [List.foldl_cons, ih, postClose, postGate_eq]
    rfl

/-- The settings in use and the baselines as both entries to RUN leave them. -/
def readied (s : State) : State :=
  { s with
    settings := { staged := s.settings.staged, inUse := s.settings.staged }
    baselines := { a := { s.baselines.a with valid := false }, b := { s.baselines.b with valid := false } } }

/-- The timers and the poll set as both entries to RUN leave them. -/
def timed (s : State) : State :=
  { readied s with
    timers := { position := some s.settings.staged.positionPeriod.toNat,
                scale := some s.settings.staged.scalePeriod.toNat }
    polls := (entryPolls s (spoutsOf s.settings.staged)).foldl (polled s) s.polls }

theorem startTimers_readied (s : State) : startTimers (readied s) = timed s := by
  rw [startTimers_eq, fittedSpouts_eq, polled_congr (s := s) (t := readied s) rfl]
  rfl

/-- With the settings taken and the timers started, a sample cycle starts too: the rest of what RUN leaves before the
activation test. -/
def cycled (s : State) : State :=
  { timed s with
    polls := (entryPolls s (spoutsOf s.settings.staged) ++ firstDustPoll s).foldl (polled s) s.polls
    heads := unsampled s.heads
    cycle := { state := if (firstPresent s).isSome then .cycling else .idle, pendingHead := firstPresent s,
               overrun := false, timer := some s.settings.staged.cyclePeriod.toNat } }

theorem startCycle_timed (s : State) : startCycle (timed s) = cycled s := by
  rw [startCycle_eq, polled_congr (s := s) (t := timed s) rfl, cycled, List.foldl_append]
  rfl

/-- The part in RUN with the close orders posted, its settings not yet taken. -/
def closing (s : State) : State :=
  (s.withRunc { s.runc with state := .run }).withOrders
    ((spoutsOf s.settings.staged).foldl (fun q sp => withGateOrder s sp 0 q) s.orders)

theorem enterRun_eq (s : State) : enterRun s = activationTest (cycled (closing s)) := by
  have closes : (fittedSpouts (readied (s.withRunc { s.runc with state := .run }))).foldl (fun t sp => postClose sp t)
      (readied (s.withRunc { s.runc with state := .run })) = readied (closing s) := by
    rw [postClose_foldl, fittedSpouts_eq]
    rfl
  rw [← startCycle_timed, ← startTimers_readied, ← closes]
  rfl

/-- The part as RESUME leaves it before the activation test. -/
def resumed (s : State) : State := timed (s.withRunc { s.runc with state := .run, haltCause := none })

theorem leaveHalt_eq (s : State) : leaveHalt s = activationTest (resumed s) := by
  rw [resumed, ← startTimers_readied]
  rfl

/-! ## RUN's checks (R36, R176) -/

theorem spoutItemFault_none {s : State} {sp : Spout} (h : SpoutStations s sp) : spoutItemFault s sp = none := by
  obtain ⟨drive, gate, scale⟩ := h
  simp [spoutItemFault, spoutItems, drive, gate, scale]

theorem headItemFault_none {s : State} (h : HeadStations s) : headItemFault s = none := by
  unfold headItemFault
  rw [Option.map_eq_none_iff, List.find?_eq_none]
  intro i _
  have good : headStationGood s i = true := by
    unfold headStationGood
    cases present : (s.heads[i]).present with
    | false => rfl
    | true =>
      obtain ⟨x, found, serves⟩ := h i present
      rw [found]
      exact serves
  simp [good]

theorem mapFault_none {s : State} (h : MapComplete s) : mapFault s = none := by
  obtain ⟨a, b, heads⟩ := h
  have second : (if s.settings.staged.spoutsFitted = 2 then spoutItemFault s .b else none) = none := by
    split
    · rename_i two
      exact spoutItemFault_none (b two)
    · rfl
  rw [mapFault, spoutItemFault_none a]
  dsimp only
  rw [second]
  exact headItemFault_none heads

theorem settingsFault_none {x : Settings} (h : SettingsAgree x) : settingsFault x = none := by
  obtain ⟨reply, scale⟩ := h
  rw [settingsFault, if_neg (Nat.not_le.mpr reply), if_neg (Nat.not_lt.mpr scale)]

theorem replied_ok {tag : Byte} {op : State → Reply} {s t : State} {data : List Byte} (h : op s = Reply.ok data t) :
    replied tag op s = pushReady (replyAnswer tag .done data) t := by
  rw [replied, h]
  rfl

/-- RUN in CONFIG with a complete map and agreeing settings is carried out. -/
theorem exec_run_entered {tag : Byte} {s : State} (taken : Taken s) (config : s.runc.state = .config)
    (complete : MapComplete s) (agree : SettingsAgree s.settings.staged) :
    exec (.run tag) s = .next (arbitrate (testedReply tag .done [] (cycled (closing (heard s))))) := by
  have run : exec (.run tag) s = .next (receive (repliedActs tag runRequest) s) := rfl
  have state : (heard s).runc.state = .config := config
  have map : mapFault (heard s) = none := mapFault_none complete
  have settings : settingsFault (heard s).settings.staged = none := settingsFault_none agree
  have reply : runRequest (heard s) = Reply.ok [] (enterRun (heard s)) := by
    rw [runRequest, state, map, settings]
  rw [run, receive_taken taken, repliedActs, replied_ok reply, enterRun_eq, testedReply]

theorem unclosedGate_none {s : State} (h : ∀ sp, fitted s sp = true → (s.gates.get sp).state = .rest .closed) :
    unclosedGate s = none :=
  List.find?_eq_none.mpr fun sp mem => by
    rw [h sp (mem_fittedSpouts.mp mem)]
    decide

/-- RESUME in HALT with every fitted gate CLOSED is carried out. -/
theorem exec_resume_left {tag : Byte} {s : State} (taken : Taken s) (halt : s.runc.state = .halt)
    (closed : ∀ sp, fitted s sp = true → (s.gates.get sp).state = .rest .closed) :
    exec (.resume tag) s = .next (arbitrate (testedReply tag .done [] (resumed (heard s)))) := by
  have run : exec (.resume tag) s = .next (receive (repliedActs tag resumeRequest) s) := rfl
  have state : (heard s).runc.state = .halt := halt
  have gates : unclosedGate (heard s) = none := unclosedGate_none closed
  have reply : resumeRequest (heard s) = Reply.ok [] (leaveHalt (heard s)) := by
    rw [resumeRequest, state, gates]
  rw [run, receive_taken taken, repliedActs, replied_ok reply, leaveHalt_eq, testedReply]

/-- After entry to RUN the fitted spouts are those of the staged settings. -/
theorem cycled_unsettled {s : State} (h : ∀ sp ∈ spoutsOf s.settings.staged, (s.spouts.get sp).state = .unknown) :
    Unsettled (cycled s) := fun sp isFitted => by
  have mem : sp ∈ fittedSpouts (cycled s) := mem_fittedSpouts.mpr isFitted
  rw [fittedSpouts_eq] at mem
  have unknown : ((cycled s).spouts.get sp).state = .unknown := h sp mem
  rw [unknown]
  decide

/-- Settles O19: what RESUME leaves before the activation test, and what that test does not write. -/
theorem resumeFromHalt : Obligations.ResumeFromHalt := by
  unfold Obligations.ResumeFromHalt
  intro tag s taken halt closed
  have field : ∀ {α : Type} (f : State → α),
      f (withoutPlan (activationTest (resumed (heard s)))) = f (withoutPlan (resumed (heard s))) :=
    fun f => congrArg f (activationTest_withoutPlan _)
  have sport := field State.sport
  refine ⟨_, exec_resume_left taken halt closed, field State.runc, field State.settings, fun sp => ?_, field State.timers, ?_,
    field State.cycle, field State.heads, field State.spouts, field State.zones, field State.stations,
    field State.relayQueue, field State.gates, field State.holdDust, field State.console, field State.freeboard,
    field State.clock, field State.unbilled, field State.pins, field State.line⟩
  · refine (field fun t => t.baselines.get sp).trans ?_
    cases sp <;> rfl
  · exact congrArg (fun x : Sport => { x with ready := x.ready ++ [replyAnswer tag .done []] }) sport

/-- Settles O16: what RUN leaves before the activation test, and what that test does not write. -/
theorem runFromConfig : Obligations.RunFromConfig := by
  unfold Obligations.RunFromConfig
  intro tag s taken config complete agree x spouts closeA first entered
  have whole : cycled (closing (heard s)) = entered := by
    have orders : (spoutsOf x).foldl (fun q sp => withGateOrder s sp 0 q) s.orders =
        if x.spoutsFitted = 2 then withGateOrder s .b 0 closeA else closeA := by
      unfold spoutsOf
      split <;> rfl
    have heads : unsampled s.heads = Vector.ofFn fun i => { s.heads[i] with sampled := false } := by
      unfold unsampled
      rfl
    unfold entered
    rw [← orders, ← heads]
    rfl
  have run := exec_run_entered (tag := tag) taken config complete agree
  rw [whole] at run
  have field : ∀ {α : Type} (f : State → α), f (withoutPlan (activationTest entered)) = f (withoutPlan entered) :=
    fun f => congrArg f (activationTest_withoutPlan entered)
  have sport := field State.sport
  refine ⟨run, fun unknown none => activationTest_quiet _ ?_ none, field State.runc, field State.settings,
    field State.baselines, field State.timers, field State.polls, field State.heads, field State.cycle, ?_,
    field State.spouts, field State.zones, field State.stations, field State.relayQueue, field State.gates,
    field State.console, field State.freeboard, field State.holdDust, field State.clock, field State.unbilled,
    field State.pins, field State.line⟩
  · exact whole ▸ cycled_unsettled (s := closing (heard s)) unknown
  · exact congrArg (fun x : Sport => { x with ready := x.ready ++ [replyAnswer tag .done []] }) sport

end Sys2Proof.Machine
end

section
/-! One head's ranges through its judgement, a miss, an acknowledgement and a restart (R81, R82, R91 to R98, R102). -/

namespace Sys2Proof.Machine

/-- The rise that a head in state `x` counts aims above that state (R93). -/
def RiseAims (x : HeadState) (count : Nat) (level : Dust) : Prop :=
  count ≠ 0 → ∃ d, x = .live d ∧ d.rank < level.rank

theorem riseAims_zero (x : HeadState) (level : Dust) : RiseAims x 0 level := fun h => absurd rfl h

theorem Dust.min_rank (x y : Dust) {n : Nat} (hx : n < x.rank) (hy : n < y.rank) : n < (Dust.min x y).rank := by
  unfold Dust.min
  split
  · exact hx
  · exact hy

namespace Head.Good

variable {h : Head}

/-- The fields a sample, a miss or a restart writes, with the counts in their ranges. -/
theorem judged (g : h.Good) {x : HeadState} {sample : Word16} {valid mark : Bool} {rise fall miss : Nat} {level : Dust}
    (hr : rise < h.persistence.toNat) (hf : fall < h.persistence.toNat) (hm : miss ≤ 2) (aims : RiseAims x rise level) :
    Head.Good { h with state := x, sample := sample, sampleValid := valid, riseCount := rise, riseLevel := level,
                       fallCount := fall, missCount := miss, sampled := mark } :=
  ⟨g.ordered, g.hysteresis, g.persistence, hr, hf, hm, aims⟩

theorem persistence_pos (g : h.Good) : 0 < h.persistence.toNat := g.persistence.1

theorem marked (g : h.Good) (b : Bool) : (h.marked b).Good :=
  g.judged g.riseCount g.fallCount g.missCount g.riseLevel

theorem rise {d : Dust} (g : h.Good) (hd : h.state = .live d) (c : Word16) : (Machine.riseCount d c h).Good := by
  unfold Machine.riseCount
  dsimp only
  split
  · rename_i above
    have aim : d.rank < (if h.riseCount = 0 then sampleLevel h c else Dust.min h.riseLevel (sampleLevel h c)).rank := by
      split
      · exact above
      · rename_i counting
        obtain ⟨x, hx, rank⟩ := g.riseLevel counting
        cases hd.symm.trans hx
        exact Dust.min_rank _ _ rank above
    split
    · exact g.judged g.persistence_pos g.persistence_pos g.missCount (riseAims_zero _ _)
    · rename_i goes
      exact g.judged (Nat.lt_of_le_of_ne g.riseCount goes) g.fallCount g.missCount fun _ => ⟨d, hd, aim⟩
  · exact g.judged g.persistence_pos g.fallCount g.missCount (riseAims_zero _ _)

theorem fall (g : h.Good) (threshold : Word16) (down : Dust) (c : Word16) :
    (Machine.fallCount threshold down c h).Good := by
  unfold Machine.fallCount
  split
  · split
    · exact g.judged g.persistence_pos g.persistence_pos g.missCount (riseAims_zero _ _)
    · rename_i goes
      exact g.judged g.riseCount (Nat.lt_of_le_of_ne g.fallCount goes) g.missCount g.riseLevel
  · exact g.judged g.riseCount g.persistence_pos g.missCount g.riseLevel

theorem judgeSample (g : h.Good) (c : Word16) : (Machine.judgeSample c h).Good := by
  unfold Machine.judgeSample
  split
  · rename_i quiet
    exact g.rise quiet c
  · rename_i watch
    dsimp only
    split
    · exact (g.rise watch c).fall _ _ c
    · exact g.rise watch c
  · rename_i alarm
    dsimp only
    split
    · exact (g.rise alarm c).fall _ _ c
    · exact g.rise alarm c
  · exact g
  · exact rise (g.judged g.persistence_pos g.persistence_pos g.missCount (riseAims_zero _ _)) rfl c

theorem validSample (g : h.Good) (c : Word16) : (Machine.validSample c h).Good :=
  (g.judged g.riseCount g.fallCount (Nat.zero_le 2) g.riseLevel).judgeSample c

theorem missSample (g : h.Good) : (Machine.missSample h).Good := by
  have missed : (if 2 ≤ h.missCount then 2 else h.missCount + 1) ≤ 2 := by split <;> omega
  unfold Machine.missSample
  dsimp only
  split
  · exact g.judged g.persistence_pos g.persistence_pos missed (riseAims_zero _ _)
  · exact g.judged g.riseCount g.fallCount missed g.riseLevel

theorem acknowledged (g : h.Good) : (Machine.acknowledged h).Good :=
  g.judged g.persistence_pos g.persistence_pos g.missCount (riseAims_zero _ _)

theorem restarted (g : h.Good) : (restartHead h).Good :=
  g.judged g.persistence_pos g.persistence_pos (Nat.zero_le 2) (riseAims_zero _ _)

end Head.Good

/-! ## The head table -/

/-- One entry of a good table takes new fields in their ranges. -/
theorem headsGood_set {s t : State} {i : HeadIx} {h : Head} (heads : t.heads = s.heads.set i.val h) (good : h.Good)
    (g : HeadsGood s) : HeadsGood t := fun j => by
  rw [heads, set_getElem_fin]
  split
  · exact good
  · exact g j

theorem headsGood_of_same {s t : State} (h : t.heads = s.heads) (g : HeadsGood s) : HeadsGood t := by
  unfold HeadsGood
  rw [h]
  exact g

theorem changeHead_headsGood {s : State} {i : HeadIx} {h : Head} (good : h.Good) (g : HeadsGood s) :
    HeadsGood (changeHead i h s) := headsGood_set (changeHead_heads i h s) good g

theorem unsampled_headsGood {s t : State} (heads : t.heads = unsampled s.heads) (g : HeadsGood s) : HeadsGood t :=
  fun j => by
    rw [heads, unsampled_getElem]
    exact (g j).marked false

theorem startCycle_headsGood {s : State} (g : HeadsGood s) : HeadsGood (startCycle s) :=
  unsampled_headsGood (by rw [startCycle_eq]; rfl) g

theorem cycleExpiry_headsGood {s : State} (g : HeadsGood s) : HeadsGood (cycleExpiry s) := by
  unfold cycleExpiry
  split
  · exact startCycle_headsGood (headsGood_of_same rfl g)
  · exact headsGood_of_same rfl g

theorem markSampled_headsGood {s : State} (i : HeadIx) (g : HeadsGood s) : HeadsGood (markSampled i s) :=
  headsGood_set rfl ((g i).marked true) g

theorem applyOutcome_headsGood {s : State} (i : HeadIx) (o : Option Word16) (g : HeadsGood s) :
    HeadsGood (applyOutcome i o s) := by
  unfold applyOutcome
  split
  · exact changeHead_headsGood ((g i).validSample _) g
  · refine changeHead_headsGood (g i).missSample (headsGood_of_same ?_ g)
    split <;> rfl

theorem nextInCycle_headsGood {s : State} (g : HeadsGood s) : HeadsGood (nextInCycle s) := by
  have asked : ∀ i, (askDust i s).heads = s.heads := fun i => by
    unfold askDust
    rw [pollDue_polled]
    rfl
  unfold nextInCycle endCycle
  split
  · exact headsGood_of_same (asked _) g
  · split
    · exact startCycle_headsGood g
    · exact headsGood_of_same rfl g

theorem dustReport_headsGood {s : State} (i : HeadIx) (o : Option Word16) (g : HeadsGood s) :
    HeadsGood (dustReport i o s) :=
  nextInCycle_headsGood (applyOutcome_headsGood i o (markSampled_headsGood i g))

end Sys2Proof.Machine
end

section
/-! The key rule, the tables and the heads through a step (R34, R35, R52 to R54, R58, R60, R81, R82, R182). -/

namespace Sys2Proof.Machine

/-- The key rule, the tables' ranges and the heads' ranges are kept. -/
structure KeepsRanges (s t : State) : Prop where
  key    : KeyRule s → KeyRule t
  tables : TablesGood s → TablesGood t
  heads  : HeadsGood s → HeadsGood t

/-- What the three properties read. -/
def ranges (s : State) : Level × Bool × ZoneTable × Vector Word16 9 × StagedSettings × Vector Station 60 × Vector Head 16 :=
  (s.console, s.pins.keyActive, s.zones, s.freeboard, s.settings, s.stations, s.heads)

theorem tablesGood_of_same {s t : State} (hz : t.zones = s.zones) (hf : t.freeboard = s.freeboard)
    (hs : t.settings = s.settings) (hm : t.stations = s.stations) (g : TablesGood s) : TablesGood t := by
  have zone : ∀ i, t.zone i = s.zone i := fun i => by unfold State.zone; rw [hz]
  refine ⟨?_, ?_, fun h => ?_, ?_, ?_, fun i => ?_, fun i => ?_⟩
  · rw [zone]; exact g.nullZone
  · rw [hz]; exact g.limit
  · unfold offsetOf; rw [hf]; exact g.freeboard h
  · rw [hs]; exact g.staged
  · rw [hs]; exact g.inUse
  · rw [zone]; exact g.zones i
  · rw [hm]; exact g.stations i

theorem keepsRanges_of_same {s t : State} (h : ranges t = ranges s) : KeepsRanges s t := by
  simp only [ranges, Prod.mk.injEq] at h
  obtain ⟨console, key, zones, freeboard, settings, stations, heads⟩ := h
  refine ⟨fun g level => ?_, tablesGood_of_same zones freeboard settings stations, headsGood_of_same heads⟩
  rw [key]
  exact g (console ▸ level)

theorem KeepsRanges.refl (s : State) : KeepsRanges s s := ⟨id, id, id⟩

theorem KeepsRanges.after {s t u : State} (h : KeepsRanges t u) (same : ranges t = ranges s) : KeepsRanges s u :=
  have k := keepsRanges_of_same same
  ⟨fun g => h.key (k.key g), fun g => h.tables (k.tables g), fun g => h.heads (k.heads g)⟩

theorem KeepsRanges.trans {s t u : State} (h : KeepsRanges s t) (k : KeepsRanges t u) : KeepsRanges s u :=
  ⟨fun g => k.key (h.key g), fun g => k.tables (h.tables g), fun g => k.heads (h.heads g)⟩

/-- The blocks' work keeps the key rule and the tables; what is left to show are the heads. -/
theorem BlockWork.keepsRanges {s t : State} (w : BlockWork s t) (heads : HeadsGood s → HeadsGood t) : KeepsRanges s t :=
  ⟨w.keyRule, w.tablesGood, heads⟩

theorem keepsBlock_ranges : KeepsBlock ranges := ⟨by constructor <;> intros <;> rfl, fun _ _ => rfl, fun _ _ => rfl⟩

theorem keepsPlan_ranges : KeepsPlan ranges := keepsBlock_ranges.toKeepsPlan

theorem keepsLine_heads : KeepsLine State.heads :=
  ⟨⟨⟨by constructor <;> intros <;> rfl, fun _ _ => rfl, fun _ _ => rfl⟩, fun _ _ => rfl, fun _ _ => rfl⟩, fun _ _ => rfl,
    fun _ _ => rfl, fun _ _ => rfl⟩

theorem arbitrate_ranges (s : State) : KeepsRanges s (arbitrate s) :=
  (arbitrate_work s).keepsRanges (headsGood_of_same (arbitrate_keeps keepsLine_heads s))

/-! ## HALT entry and the ends of transactions write no head but a dust poll's -/

section
variable {κ : Type} {k : State → κ} (s : State)

theorem haltEntry_keeps (hk : KeepsTravel k) (hr : ∀ s x, k (s.withRunc x) = k s) (cause : HaltCause) :
    k (haltEntry cause s) = k s := by
  rw [haltEntry_eq, setNotice_keeps hk.toKeepsPlan, preemptHalted]
  rw [keeps_foldl _ fun t e => withdrawMove_keeps hk t e, preempt_keeps hk.toKeepsBlock, haltSpout_keeps hk.toKeepsPlan,
    haltSpout_keeps hk.toKeepsPlan]
  exact (hk.orders _ _).trans (hr _ _)

variable (hk : KeepsLine k) (hr : ∀ s x, k (s.withRunc x) = k s)
include hk

theorem relayEnd_keeps (tag : Byte) (answer : Option (List Byte)) : k (relayEnd tag answer s) = k s := by
  have set : ∀ sp r t, k (setGate sp r t) = k t := fun _ _ _ => hk.gates _ _
  unfold relayEnd
  split
  · rfl
  · rename_i e _
    refine Eq.trans ?_ (answerEntry_keeps hk.toKeepsBlock s e (relayAnswer e answer))
    cases e.body with
    | move m cls c =>
      unfold relayOutcome
      dsimp only
      split
      · rfl
      · exact undoMove_keeps hk.toKeepsTravel _ _ _
    | gate g x trim => exact gateOutcome_keeps hk.toKeepsPlan fun r => set _ r _
    | plain d => rfl

include hr

theorem gateOrderFailed_keeps (sp : Spout) (x : Setting) : k (gateOrderFailed sp x s) = k s := by
  rw [gateOrderFailed_eq]
  dsimp only
  rw [activationTest_keeps hk.toKeepsPlan]
  split
  · exact (hk.orders _ _).trans ((setNotice_keeps hk.toKeepsPlan _ _ _).trans (hk.gates _ _))
  · split
    · rw [← haltEntry_entered, haltEntry_keeps _ hk.toKeepsTravel hr]
      exact (setNotice_keeps hk.toKeepsPlan _ _ _).trans (hk.gates _ _)
    · exact (setNotice_keeps hk.toKeepsPlan _ _ _).trans (hk.gates _ _)

theorem orderFailed_keeps (o : OrderKind) (station : Byte) : k (orderFailed o station s) = k s := by
  unfold orderFailed
  split
  · exact setNotice_keeps hk.toKeepsPlan _ _ _
  · exact gateOrderFailed_keeps s hk hr _ _
  · rfl

theorem orderEnd_keeps (o : OrderKind) (poster : Poster) (station : Byte) (n : Nat) (answer : Option (List Byte)) :
    k (orderEnd o poster station n answer s) = k s := by
  unfold orderEnd
  split
  · unfold orderOk
    split
    · exact (confirmGate_keeps hk.toKeepsPlan _ _ _).trans (hk.gates _ _)
    · rfl
  · exact orderFailed_keeps s hk hr _ _
  · unfold attemptFailed
    split
    · rfl
    · split
      · exact startOrder_keeps hk _ _ _ _ _
      · exact orderFailed_keeps s hk hr _ _

end

/-- A transaction's outcome writes, of the heads, at most the polled one. -/
theorem outcomeTaken_headsGood {s : State} (t : Transaction) (answer : Option (List Byte)) (g : HeadsGood s) :
    HeadsGood (outcomeTaken t answer s) := by
  have travel := keepsLine_heads.toKeepsTravel
  unfold outcomeTaken
  split
  · unfold pollReport
    split
    · refine headsGood_of_same ?_ g
      split
      · exact positionAnswer_keeps travel _ _ _ _
      · exact missedPoll_keeps travel _ _
    · exact dustReport_headsGood _ _ g
    · exact headsGood_of_same (scaleReport_keeps travel.toKeepsPlan (fun _ _ => rfl) (fun _ _ => rfl) _) g
  · exact headsGood_of_same (orderEnd_keeps s keepsLine_heads (fun _ _ => rfl) _ _ _ _ _) g
  · exact headsGood_of_same (relayEnd_keeps s keepsLine_heads _ _) g

theorem endTransaction_ranges (t : Transaction) (answer : Option (List Byte)) (s : State) :
    KeepsRanges s (endTransaction t answer s) :=
  (endTransaction_work s t answer).keepsRanges fun g => by
    rw [endTransaction_eq]
    exact (arbitrate_ranges _).heads (outcomeTaken_headsGood t answer (headsGood_of_same rfl g))

/-! ## Requests on the plan, the bills and the notices -/

section
variable {κ : Type} {k : State → κ} (hk : KeepsPlan k) (s : State)
include hk

theorem appendStep_keeps (f : StepFields) : k (appendStep f s).state = k s := by
  unfold appendStep
  split
  · rfl
  · split
    · rfl
    · split
      · rfl
      · exact (activationTest_keeps hk _).trans (joinPlan_keeps hk _ _ _)

theorem cancelStep_keeps (n : Word16) : k (cancelStep n s).state = k s := by
  unfold cancelStep
  split
  · rfl
  · split
    · rfl
    · split
      · rfl
      · rw [Reply.ok_state, cancelRecord, activationTest_keeps hk, afterEnd_keeps hk]
        split
        · rw [closeUnlessClosed_keeps hk, setStepState_keeps hk]
        · exact setStepState_keeps hk _ _ _

theorem endStep_keeps (n : Word16) : k (endStep n s).state = k s := by
  unfold endStep
  split
  · rfl
  · split
    · exact (activationTest_keeps hk _).trans (enterDone_keeps hk _ _)
    · rfl

theorem purgeSteps_keeps : k (purgeSteps s).state = k s :=
  (activationTest_keeps hk _).trans ((hk.account _ _).trans (hk.plan _ _))

theorem trimPour_keeps (f : TrimFields) : k (trimPour f s).state = k s := by
  unfold trimPour
  split
  · rfl
  · unfold trimChecked
    split
    · rfl
    · split
      · exact (activationTest_keeps hk _).trans (createTrimAtTail_keeps hk _ _ _)
      · split
        · exact (activationTest_keeps hk _).trans (pushRunning_keeps hk _ _ _ _)
        · split
          · exact setLatch_keeps hk _ _ _
          · rfl

theorem openBill_keeps (n : Word16) : k (openBill n s).state = k s := by
  unfold openBill
  split
  · rfl
  · split
    · rfl
    · split
      · rfl
      · split
        · rfl
        · exact hk.bills _ _

theorem closeBill_keeps : k (closeBill s).state = k s := by
  unfold closeBill
  split
  · rfl
  · split
    · rfl
    · rw [Reply.ok_state, rewindCursor]
      split
      · exact (hk.stack _ _).trans (hk.bills _ _)
      · exact hk.bills _ _

theorem readBillOpen_keeps (n : Word16) : k (readBillOpen n s).state = k s := by
  unfold readBillOpen
  split
  · rfl
  · split
    · exact hk.stack _ _
    · rfl

theorem readBillNext_keeps : k (readBillNext s).state = k s := by
  unfold readBillNext
  split
  · split
    · rfl
    · split
      · exact hk.stack _ _
      · show k (markRead _ _ s) = k s
        unfold markRead
        split
        · exact hk.bills _ _
        · rfl
  · rfl

theorem readBillEnd_keeps : k (readBillEnd s).state = k s := by
  unfold readBillEnd
  split
  · exact (activationTest_keeps hk _).trans ((serveShared_keeps hk _).trans (hk.stack _ _))
  · rfl

theorem issueBill_keeps (n : Word16) : k (issueBill n s).state = k s := by
  unfold issueBill
  split
  · rfl
  · split
    · exact hk.bills _ _
    · rfl

theorem nextNotice_keeps : k (nextNotice s).state = k s := by
  unfold nextNotice
  split
  · exact hk.notices _ _
  · rfl

theorem clearNotices_keeps (n : Word16) : k (clearNotices n s).state = k s := by
  unfold clearNotices
  split
  · exact hk.notices _ _
  · rfl

theorem setNoticeMask_keeps (n : Word16) : k (setNoticeMask n s).state = k s := by
  unfold setNoticeMask
  split
  · exact hk.notices _ _
  · rfl

end

/-! ## The fields a configuration request admits (R35, R53, R54, R82, R182) -/

theorem stationEntry_good {present : Bool} {kind unit cls : Byte} {x : Station}
    (h : stationEntry present kind unit cls = some x) : x.Good := by
  unfold stationEntry at h
  split at h
  · rename_i k c _ _
    split at h
    · rename_i suits
      cases h
      split
      · refine ⟨?_, ?_, ?_, fun absent => nomatch absent⟩
        · rintro (rfl | rfl | rfl) <;> exact of_decide_eq_true suits
        · rintro rfl
          exact of_decide_eq_true suits
        · rintro (rfl | rfl) <;> rfl
      · exact stationInitial_good
    · cases h
  · cases h

/-- A zone entry whose box is good and whose hold and ends suit its type. -/
theorem zoneGood_of_box {z : Zone} (box : boxGood z.box = true) (hold : z.hold.isSome = true ↔ z.zoneType = .hold)
    (type : z.zoneType ≠ .route) (ends : z.fromZone = 0 ∧ z.toZone = 0) : z.Good := by
  simp only [boxGood, Bool.and_eq_true, decide_eq_true_eq] at box
  obtain ⟨⟨⟨rail, ⟨slewMin, slew⟩, slewMax⟩, reach⟩, lower⟩ := box
  exact ⟨rail, ⟨slewMin, slew, slewMax⟩, reach, lower, hold, fun route => absurd route type, fun _ => ends⟩

theorem zoneNumber_range {b : Byte} (h : zoneNumber b = true) : 1 ≤ b.toNat ∧ b.toNat ≤ 63 := by
  simpa [zoneNumber] using h

theorem zoneEntry_good {z : ZoneFields} {mk : Option Spout → Zone} (h : zoneEntry z = some mk) (o : Option Spout) :
    (mk o).Good := by
  unfold zoneEntry at h
  split at h
  · split at h
    · split at h
      · rename_i box
        cases h
        exact zoneGood_of_box box (by simp) (fun route => nomatch route) ⟨rfl, rfl⟩
      · cases h
    · cases h
  · split at h
    · rename_i ends
      cases h
      rw [Bool.and_eq_true] at ends
      exact ⟨zoneInitial_good.rail, zoneInitial_good.slew, zoneInitial_good.reach, zoneInitial_good.lower, by simp,
        fun _ => ⟨zoneNumber_range ends.1, zoneNumber_range ends.2⟩, fun no => absurd rfl no⟩
    · cases h
  · rename_i t level noHold noRoute _ _
    split at h
    · rename_i box
      cases h
      refine zoneGood_of_box box ?_ ?_ ⟨rfl, rfl⟩
      · constructor
        · intro none
          cases none
        · rintro rfl
          exact (noHold rfl).elim
      · rintro rfl
        exact noRoute rfl
    · cases h
  · cases h

theorem inRange_iff (lo hi : Nat) (w : Word16) : inRange lo hi w = true ↔ lo ≤ w.toNat ∧ w.toNat ≤ hi := by
  simp [inRange]

theorem headEntry_good {h : HeadFields} {x : Head} (hx : headEntry h = some x) : x.Good := by
  unfold headEntry at hx
  split at hx
  · split at hx
    · rename_i good
      cases hx
      simp only [headGood, Bool.and_eq_true, decide_eq_true_eq] at good
      obtain ⟨⟨⟨⟨⟨⟨_, _⟩, trip⟩, watch⟩, alarm⟩, hysteresis⟩, persistence⟩ := good
      exact ⟨⟨watch, alarm, trip⟩, hysteresis, persistence, persistence.1, persistence.1, Nat.zero_le 2, riseAims_zero _ _⟩
    · cases hx
  · cases hx
    exact headInitial_good


/-! ## Requests that write the tables -/

/-- A configuration request writes, if at all, by its write. -/
theorem inConfig_ranges {w : Option (State → State)} (s : State) (h : ∀ g, w = some g → KeepsRanges s (g s)) :
    KeepsRanges s (inConfig (writeIf w) s).state := by
  unfold inConfig
  split
  · cases w with
    | none => exact .refl s
    | some g => exact h g rfl
  · exact .refl s

section
variable (s : State)

theorem loadStation_ranges (a : Byte) (p : Bool) (k u c : Byte) : KeepsRanges s (loadStation a p k u c s).state := by
  refine inConfig_ranges s fun g hg => ?_
  unfold writeStation at hg
  split at hg
  · rename_i i x _ entry
    cases hg
    refine ⟨id, fun g => { g with stations := fun j => ?_ }, id⟩
    show ((s.stations.set i.val x)[j]).Good
    rw [set_getElem_fin]
    split
    · exact stationEntry_good entry
    · exact g.stations j
  · cases hg

theorem loadZone_ranges (z : ZoneFields) : KeepsRanges s (loadZone z s).state := by
  refine inConfig_ranges s fun g hg => ?_
  unfold writeZone at hg
  split at hg
  · rename_i i mk _ entry
    split at hg
    · cases hg
    · rename_i loaded
      cases hg
      have zone : ∀ j, (s.withZones { s.zones with entries := s.zones.entries.set i.val (mk (s.zone i).owner) }).zone j =
          if j = i then mk (s.zone i).owner else s.zone j := fun j => set_getElem_fin _ i j _
      refine ⟨id, fun g => { g with nullZone := ?_, zones := fun j => ?_ }, id⟩
      · rw [zone, if_neg fun null => loaded null.symm]
        exact g.nullZone
      · rw [zone]
        split
        · exact zoneEntry_good entry _
        · exact g.zones j
  · cases hg

theorem setZoneLimit_ranges (l : Byte) : KeepsRanges s (setZoneLimit l s).state := by
  refine inConfig_ranges s fun g hg => ?_
  unfold writeLimit at hg
  split at hg
  · rename_i limit
    cases hg
    exact ⟨id, fun g => { g with limit := limit }, id⟩
  · cases hg

theorem loadHead_ranges (h : HeadFields) : KeepsRanges s (loadHead h s).state := by
  refine inConfig_ranges s fun g hg => ?_
  unfold writeHead at hg
  split at hg
  · rename_i i x _ entry
    cases hg
    exact (setHead_work s i x).keepsRanges (headsGood_set rfl (headEntry_good entry))
  · cases hg

theorem setTiming_ranges (a b c d : Word16) : KeepsRanges s (setTiming a b c d s).state := by
  refine inConfig_ranges s fun g hg => ?_
  unfold writeTiming at hg
  split at hg
  · rename_i fields
    cases hg
    simp only [Bool.and_eq_true, inRange_iff] at fields
    obtain ⟨⟨⟨reply, position⟩, scale⟩, cycle⟩ := fields
    exact ⟨id, fun g => { g with
      staged := ⟨reply, position, scale, cycle, g.staged.spoutsFitted, g.staged.maxDelta⟩ }, id⟩
  · cases hg

theorem setLimits_ranges (n c : Byte) (d : Word16) : KeepsRanges s (setLimits n c d s).state := by
  refine inConfig_ranges s fun g hg => ?_
  unfold writeLimits at hg
  split at hg
  · split at hg
    · rename_i fields
      cases hg
      obtain ⟨spouts, delta⟩ := fields
      have fitted : n.toNat = 1 ∨ n.toNat = 2 := spouts.imp (congrArg BitVec.toNat) (congrArg BitVec.toNat)
      exact ⟨id, fun g => { g with
        staged := ⟨g.staged.replyTimeout, g.staged.positionPeriod, g.staged.scalePeriod, g.staged.cyclePeriod, fitted,
          (inRange_iff _ _ _).mp delta⟩ }, id⟩
    · cases hg
  · cases hg

theorem setFreeboard_ranges (h : Byte) (o : Word16) : KeepsRanges s (setFreeboard h o s).state := by
  unfold setFreeboard
  split
  · rename_i x _
    split
    · rename_i range
      have written : KeepsRanges s (s.withFreeboard (s.freeboard.set x.val o)) := by
        refine ⟨id, fun g => { g with freeboard := fun y => ?_ }, id⟩
        show ((s.freeboard.set x.val o)[y]).toNat ≤ 5000
        rw [set_getElem_fin]
        split
        · exact range
        · exact g.freeboard y
      have tested : ∀ u sp, BlockWork u (if settledOver u sp x then testOverreach sp u else u) := fun u sp => by
        split
        · exact testOverreach_work u sp
        · exact .refl u
      have heads : ∀ u, (bothSpouts.foldl (fun u sp => if settledOver u sp x then testOverreach sp u else u) u).heads =
          u.heads := fun u => keeps_foldl (k := State.heads) _ (fun u sp => by split <;> rfl) _ u
      refine written.trans (((BlockWork.foldl tested _ _).trans (tcuKnown_work _ _)).keepsRanges
        (headsGood_of_same ?_))
      rw [tcuKnown_keeps keepsLine_heads.toKeepsBlock]
      exact heads _
    · exact .refl s
  · exact .refl s

theorem sampleNow_ranges : KeepsRanges s (sampleNow s).state := by
  refine (sampleNow_work s).keepsRanges fun g => ?_
  unfold sampleNow
  split
  · exact g
  · split
    · rw [Reply.ok_state]
      exact startCycle_headsGood g
    · exact g

theorem ackTrip_ranges (i : Byte) : KeepsRanges s (ackTrip i s).state := by
  refine (ackTrip_work s i).keepsRanges fun g => ?_
  unfold ackTrip
  split
  · exact g
  · dsimp only
    split
    · exact g
    · split
      · exact g
      · split
        · exact changeHead_headsGood (g _).acknowledged g
        · exact g

theorem setConsoleLevel_ranges (l : Byte) : KeepsRanges s (setConsoleLevel l s).state := by
  unfold setConsoleLevel
  split
  · exact .refl s
  · split
    · exact .refl s
    · rename_i key
      refine ⟨fun _ level => ?_, tablesGood_of_same rfl rfl rfl rfl, headsGood_of_same rfl⟩
      exact (Bool.not_eq_false _).mp (not_and.mp key level)

/-- The settings staged, in their ranges, are in use. -/
theorem tablesGood_taken {s t : State} (hz : t.zones = s.zones) (hf : t.freeboard = s.freeboard)
    (hs : t.settings = { staged := s.settings.staged, inUse := s.settings.staged }) (hm : t.stations = s.stations)
    (g : TablesGood s) : TablesGood t := by
  have taken : TablesGood (takeSettings s) := { g with inUse := g.staged }
  exact tablesGood_of_same (s := takeSettings s) hz hf hs hm taken

theorem enterRun_ranges : KeepsRanges s (enterRun s) := by
  rw [enterRun_eq]
  refine KeepsRanges.trans (t := cycled (closing s)) ⟨id, tablesGood_taken rfl rfl rfl rfl, unsampled_headsGood rfl⟩ ?_
  exact keepsRanges_of_same (activationTest_keeps keepsPlan_ranges _)

theorem leaveHalt_ranges : KeepsRanges s (leaveHalt s) := by
  rw [leaveHalt_eq]
  refine KeepsRanges.trans (t := resumed s) ⟨id, tablesGood_taken rfl rfl rfl rfl, headsGood_of_same rfl⟩ ?_
  exact keepsRanges_of_same (activationTest_keeps keepsPlan_ranges _)

theorem runRequest_ranges : KeepsRanges s (runRequest s).state := by
  unfold runRequest
  split
  · exact .refl s
  · exact .refl s
  · split
    · exact .refl s
    · split
      · exact .refl s
      · rw [Reply.ok_state]
        exact enterRun_ranges s

theorem haltRequest_ranges : KeepsRanges s (haltRequest s).state := by
  unfold haltRequest
  split
  · exact (haltEntry_work s .request).keepsRanges
      (headsGood_of_same (haltEntry_keeps s keepsLine_heads.toKeepsTravel (fun _ _ => rfl) _))
  · exact .refl s
  · exact .refl s

theorem resumeRequest_ranges : KeepsRanges s (resumeRequest s).state := by
  unfold resumeRequest
  split
  · exact .refl s
  · exact .refl s
  · split
    · exact .refl s
    · rw [Reply.ok_state]
      exact leaveHalt_ranges s

end

/-! ## Taking a frame -/

theorem receive_ranges {taken : State → State} (s : State) (h : ∀ u, KeepsRanges u (taken u)) :
    KeepsRanges s (receive taken s) := by
  have hears : KeepsRanges s (heard s) := keepsRanges_of_same rfl
  rw [receive_eq]
  split
  · exact .refl s
  · split
    · exact hears
    · split
      · exact keepsRanges_of_same rfl
      · exact hears.trans (h _)

section
variable (u : State)

theorem replied_ranges {tag : Byte} {op : State → Reply} (h : KeepsRanges u (op u).state) :
    KeepsRanges u (replied tag op u) := h.trans (keepsRanges_of_same rfl)

theorem repliedActs_ranges {tag : Byte} {op : State → Reply} (h : KeepsRanges u (op u).state) :
    KeepsRanges u (repliedActs tag op u) := (replied_ranges u h).trans (arbitrate_ranges _)

theorem relayTaken_ranges {tag dest kind : Byte} {arrival : State → State} (h : KeepsRanges u (arrival u)) :
    KeepsRanges u (relayTaken tag dest kind arrival u) := by
  unfold relayTaken
  split
  · exact h.trans (arbitrate_ranges _)
  · exact keepsRanges_of_same rfl

theorem moveArrival_ranges (tag dest : Byte) (m : MoveFields) : KeepsRanges u (moveArrival tag dest m u) := by
  unfold moveArrival
  split
  · exact keepsRanges_of_same rfl
  · split
    · exact keepsRanges_of_same rfl
    · exact ((acceptMove_work u _ _ _).keepsRanges
        (headsGood_of_same (acceptMove_keeps keepsLine_heads.toKeepsTravel _ _ _ _))).trans (keepsRanges_of_same rfl)

theorem gateArrival_ranges (tag dest : Byte) (x : GateFields) : KeepsRanges u (gateArrival tag dest x u) := by
  unfold gateArrival
  split
  · exact keepsRanges_of_same rfl
  · split
    · exact keepsRanges_of_same rfl
    · split <;> exact keepsRanges_of_same rfl

theorem plainArrival_ranges (tag dest : Byte) (data : List Byte) : KeepsRanges u (plainArrival tag dest data u) := by
  unfold plainArrival
  split <;> exact keepsRanges_of_same rfl

/-- Whatever request a taken frame carries, the three properties are kept. -/
theorem carriedOut_ranges (c : Instr) : KeepsRanges u (carriedOut c u) := by
  have hk := keepsPlan_ranges
  cases c with
  | move t d m => exact relayTaken_ranges u (moveArrival_ranges u t d m)
  | gate t d x => exact relayTaken_ranges u (gateArrival_ranges u t d x)
  | plain t d data => exact relayTaken_ranges u (plainArrival_ranges u t d data)
  | run t => exact repliedActs_ranges u (runRequest_ranges u)
  | halt t => exact repliedActs_ranges u (haltRequest_ranges u)
  | resume t => exact repliedActs_ranges u (resumeRequest_ranges u)
  | setConsoleLevel t l => exact replied_ranges u (setConsoleLevel_ranges u l)
  | loadStation t a p k n c => exact replied_ranges u (loadStation_ranges u a p k n c)
  | loadZone t z => exact replied_ranges u (loadZone_ranges u z)
  | setZoneLimit t l => exact replied_ranges u (setZoneLimit_ranges u l)
  | loadHead t h => exact replied_ranges u (loadHead_ranges u h)
  | setTiming t a b c d => exact replied_ranges u (setTiming_ranges u a b c d)
  | setLimits t n c d => exact replied_ranges u (setLimits_ranges u n c d)
  | readStation t a => exact replied_ranges u (by rw [readStation_state]; exact .refl u)
  | readZone t i => exact replied_ranges u (by rw [readZone_state]; exact .refl u)
  | queryZone t i l => exact replied_ranges u (by rw [queryZone_state]; exact .refl u)
  | readHead t i => exact replied_ranges u (by rw [readHead_state]; exact .refl u)
  | setFreeboard t h o => exact repliedActs_ranges u (setFreeboard_ranges u h o)
  | sampleNow t => exact repliedActs_ranges u (sampleNow_ranges u)
  | ackTrip t i => exact repliedActs_ranges u (ackTrip_ranges u i)
  | appendStep t f => exact repliedActs_ranges u (keepsRanges_of_same (appendStep_keeps hk u f))
  | cancelStep t n => exact repliedActs_ranges u (keepsRanges_of_same (cancelStep_keeps hk u n))
  | endStep t n => exact repliedActs_ranges u (keepsRanges_of_same (endStep_keeps hk u n))
  | purgeSteps t => exact repliedActs_ranges u (keepsRanges_of_same (purgeSteps_keeps hk u))
  | readStep t n => exact replied_ranges u (by rw [readStep_state]; exact .refl u)
  | readPlan t i => exact replied_ranges u (by rw [readPlan_state]; exact .refl u)
  | trimPour t f => exact repliedActs_ranges u (keepsRanges_of_same (trimPour_keeps hk u f))
  | openBill t n => exact replied_ranges u (keepsRanges_of_same (openBill_keeps hk u n))
  | closeBill t => exact replied_ranges u (keepsRanges_of_same (closeBill_keeps hk u))
  | readBillOpen t n => exact replied_ranges u (keepsRanges_of_same (readBillOpen_keeps hk u n))
  | readBillNext t => exact replied_ranges u (keepsRanges_of_same (readBillNext_keeps hk u))
  | readBillEnd t => exact repliedActs_ranges u (keepsRanges_of_same (readBillEnd_keeps hk u))
  | issueBill t n => exact replied_ranges u (keepsRanges_of_same (issueBill_keeps hk u n))
  | nextNotice t => exact replied_ranges u (keepsRanges_of_same (nextNotice_keeps hk u))
  | clearNotices t n => exact replied_ranges u (keepsRanges_of_same (clearNotices_keeps hk u n))
  | setNoticeMask t n => exact replied_ranges u (keepsRanges_of_same (setNoticeMask_keeps hk u n))
  | _ => exact keepsRanges_of_same rfl

theorem takeFrame_ranges (f : Frame) : KeepsRanges u (takeFrame f u) := by
  unfold takeFrame
  split
  · exact keepsRanges_of_same rfl
  · exact keepsRanges_of_same rfl
  · exact carriedOut_ranges u _

end

/-! ## Events that are no request -/

section
variable (s : State)

theorem discard_ranges (n : Word16) : KeepsRanges s (discard n s) := by
  unfold discard
  split <;> exact keepsRanges_of_same rfl

theorem receiveDamaged_ranges : KeepsRanges s (receiveDamaged s) := by
  rw [receiveDamaged_eq]
  split
  · exact .refl s
  · split <;> exact keepsRanges_of_same rfl

theorem dropField_ranges : KeepsRanges s (dropField s) := by
  unfold dropField
  split <;> exact keepsRanges_of_same rfl

theorem takeField_ranges (f : Frame) : KeepsRanges s (takeField f s) := by
  have heardField : KeepsRanges s (setFldRx .hunt s) := keepsRanges_of_same rfl
  unfold takeField
  split
  · exact .refl s
  · dsimp only
    split
    · refine heardField.trans ?_
      unfold matchAnswer
      split
      · split
        · exact endTransaction_ranges _ _ _
        · exact .refl _
      · exact .refl _
    · exact heardField

theorem fieldFrameEnd_ranges : KeepsRanges s (fieldFrameEnd s) := by
  unfold fieldFrameEnd
  split
  · split
    · rw [allStopSent_eq]
      exact (arbitrate_ranges _).after rfl
    · exact keepsRanges_of_same rfl
  · exact .refl s

theorem replyTimerEnd_ranges : KeepsRanges s (replyTimerEnd s) := by
  unfold replyTimerEnd
  split
  · exact endTransaction_ranges _ _ _
  · exact .refl s

/-- A poll timer reloads, and its polls are made due. -/
theorem pollsDue_ranges (timers : PollTimers) (polls : List Poll) :
    KeepsRanges s (arbitrate ((s.withTimers timers).withPolls polls)) :=
  (arbitrate_ranges _).after rfl

theorem restartAll_zone (i : ZoneIx) : (restartAll s).zone i = { s.zone i with owner := none } := by
  simp only [State.zone, restartAll, restartZones, mapTable_getElem]

/-- A restart puts the console at level 2, frees every zone, and keeps the rest of the tables and the heads' fields. -/
theorem restartAll_ranges : KeepsRanges s (restartAll s) := by
  have limit : (restartAll s).zones.limit = s.zones.limit := by simp only [restartAll, restartZones]
  have heads : (restartAll s).heads = mapTable restartHead s.heads := by simp only [restartAll]
  refine ⟨fun _ level => absurd level (show (2 : Level) ≠ 0 by decide),
    fun g => ⟨?_, ?_, g.freeboard, g.staged, g.inUse, fun i => ?_, g.stations⟩, fun g i => ?_⟩
  · rw [restartAll_zone]
    exact g.nullZone
  · rw [limit]
    exact g.limit
  · rw [restartAll_zone]
    exact (g.zones i).owner none
  · rw [heads, mapTable_getElem]
    exact (g i).restarted

theorem powerUp_ranges (clk baud : Bool) : KeepsRanges s (powerUp clk baud s) :=
  ⟨fun _ level => absurd level (show (2 : Level) ≠ 0 by decide), fun _ =>
      tablesGood_of_same (s := State.reset) rfl rfl rfl rfl tablesGood_reset,
    fun _ => headsGood_of_same (s := State.reset) rfl headsGood_reset⟩

theorem endUpstream_ranges : KeepsRanges s (endUpstream s) := by
  unfold endUpstream
  split
  · dsimp only
    split
    · exact (restartAll_ranges _).after rfl
    · exact keepsRanges_of_same rfl
  · exact .refl s

theorem startUpstream_ranges : KeepsRanges s (startUpstream s) := by
  unfold startUpstream
  split
  · exact .refl s
  · split <;> exact keepsRanges_of_same rfl

end

/-- Every command keeps the three properties. -/
theorem exec_ranges {c : Instr} {s t : State} (h : exec c s = .next t) : KeepsRanges s t := by
  have request : ∀ d : Instr, KeepsRanges s (receive (carriedOut d) s) :=
    fun d => receive_ranges s fun u => carriedOut_ranges u d
  cases c with
  | powerOn clk baud => cases h; exact powerUp_ranges s clk baud
  | restartInput =>
    cases h
    split
    · exact .refl s
    · exact (restartAll_ranges s).trans (keepsRanges_of_same rfl)
  | restartInputRelease | clockMinute => cases h; exact keepsRanges_of_same rfl
  | maintenanceKeyInactive =>
    cases h
    refine ⟨fun _ level => ?_, fun g => tablesGood_of_same (s := s) rfl rfl rfl rfl g, id⟩
    have raised : (if s.console = 0 then (1 : Level) else s.console) = 0 := level
    split at raised
    · cases raised
    · rename_i above
      exact absurd raised above
  | maintenanceKeyActive => cases h; exact ⟨fun _ _ => rfl, fun g => tablesGood_of_same (s := s) rfl rfl rfl rfl g, id⟩
  | supervisorFrame f w =>
    cases h
    split
    · exact discard_ranges s 2
    · split
      · exact receive_ranges s fun u => takeFrame_ranges u f
      · exact receiveDamaged_ranges s
  | supervisorFrameLengthDiscard => cases h; exact discard_ranges s 2
  | supervisorFrameTimeLimit =>
    cases h
    split
    · exact .refl s
    · exact discard_ranges s 3
  | upstreamFrameStart => cases h; exact startUpstream_ranges s
  | upstreamFrameSent => cases h; exact endUpstream_ranges s
  | plain tag dest data =>
    cases h
    split
    · exact request (.plain tag dest data)
    · exact discard_ranges s 2
  | fieldFrameReceived f w =>
    cases h
    split
    · exact takeField_ranges s f
    · exact dropField_ranges s
  | fieldFrameLengthDiscard | fieldCheckWordMismatch => cases h; exact dropField_ranges s
  | fieldFrameTimeLimit => cases h; exact keepsRanges_of_same rfl
  | fieldFrameSent => cases h; exact fieldFrameEnd_ranges s
  | replyTimeout => cases h; exact replyTimerEnd_ranges s
  | positionTimerExpiry =>
    by_cases stopped : s.timers.position = none
    · cases (exec_positionTimer_stopped stopped).symm.trans h
      exact .refl s
    · cases (exec_positionTimer_runs stopped).symm.trans h
      exact pollsDue_ranges s _ _
  | scaleTimerExpiry =>
    by_cases stopped : s.timers.scale = none
    · cases (exec_scaleTimer_stopped stopped).symm.trans h
      exact .refl s
    · cases (exec_scaleTimer_runs stopped).symm.trans h
      exact pollsDue_ranges s _ _
  | cycleTimerExpiry =>
    by_cases stopped : s.cycle.timer = none
    · cases (exec_cycleTimer_stopped stopped).symm.trans h
      exact .refl s
    · cases (exec_cycleTimer_runs stopped).symm.trans h
      exact ((cycleExpiry_work s).keepsRanges cycleExpiry_headsGood).trans (arbitrate_ranges _)
  | startByteReceived line =>
    cases h
    cases line with
    | supervisor => dsimp only; split <;> exact keepsRanges_of_same rfl
    | field => dsimp only; split <;> exact keepsRanges_of_same rfl
  | move a b m => cases h; exact request (.move a b m)
  | gate a b g => cases h; exact request (.gate a b g)
  | _ => rw [exec_request s rfl rfl] at h; cases h; exact request _

theorem idle_ranges {s t : State} (h : idle s = .next t) : KeepsRanges s t := by
  unfold idle at h
  split at h
  · cases h
    exact keepsRanges_of_same rfl
  · exact exec_ranges h
  · unfold chooseDue at h
    exact (exec_ranges h).after rfl

/-- Settles O58: every command keeps the three properties, and so do the tick and the queue's own step. -/
theorem tablesAndHeadsKept : Obligations.TablesAndHeadsKept := by
  unfold Obligations.TablesAndHeadsKept
  intro s t h
  have keeps : KeepsRanges s t := by
    unfold step at h
    split at h
    · exact (exec_ranges h).after rfl
    · exact idle_ranges h
  exact ⟨keeps.key, keeps.tables, keeps.heads⟩

end Sys2Proof.Machine
end

section
/-! Configuration requests and the requests that read the station map and the zone table (R34, R35, R53 to R55, R60, R63, R79,
R82, R182, R195, R196). -/

namespace Sys2Proof.Machine

/-! ## A request and its REPLY -/

section
variable {c : Instr} {tag : Byte} {s : State}

/-- A taken request whose work is done is answered DONE from the state it leaves. -/
theorem exec_replied_ok {op : State → Reply} {data : List Byte} {t : State} (taken : Taken s)
    (run : exec c s = .next (receive (replied tag op) s)) (h : op (heard s) = Reply.ok data (heard t)) :
    exec c s = .next (replyTo tag .done data t) := by
  rw [run, receive_taken taken, replied_ok h]
  rfl

/-- A taken request that is refused leaves only its REPLY. -/
theorem exec_replied_refused {op : State → Reply} {code : Code} (taken : Taken s)
    (run : exec c s = .next (receive (replied tag op) s)) (h : op (heard s) = Reply.refuse code (heard s)) :
    exec c s = .next (replyTo tag code [] s) := by
  rw [run, receive_taken taken, replied, h]
  rfl

/-- A configuration request outside CONFIG. -/
theorem exec_notConfig {op : State → Reply} (taken : Taken s) (state : s.runc.state ≠ .config)
    (run : exec c s = .next (receive (replied tag (inConfig op)) s)) :
    exec c s = .next (replyTo tag .notConfig [] s) :=
  exec_replied_refused taken run (if_neg state)

section
variable {w : Option (State → State)} (taken : Taken s) (config : s.runc.state = .config)
  (run : exec c s = .next (receive (replied tag (inConfig (writeIf w))) s))
include taken config run

/-- A configuration request whose fields are out of range. -/
theorem exec_badValue (h : w = none) : exec c s = .next (replyTo tag .badValue [] s) := by
  refine exec_replied_refused taken run ?_
  rw [inConfig, if_pos (show (heard s).runc.state = .config from config), h]
  rfl

/-- A configuration request whose fields are good. -/
theorem exec_written {g : State → State} {t : State} (h : w = some g) (left : g (heard s) = heard t) :
    exec c s = .next (replyTo tag .done [] t) := by
  refine exec_replied_ok taken run ?_
  rw [inConfig, if_pos (show (heard s).runc.state = .config from config), h, ← left]
  rfl

end

end

/-! ## LOAD_STATION (R34, R35) -/

theorem addressIx_some {b : Byte} (h : 1 ≤ b.toNat ∧ b.toNat ≤ 60) : ∃ i, addressIx? b = some i ∧ i.val + 1 = b.toNat :=
  ⟨_, dif_pos h, Nat.sub_add_cancel h.1⟩

theorem addressIx_none {b : Byte} (h : ¬ (1 ≤ b.toNat ∧ b.toNat ≤ 60)) : addressIx? b = none := dif_neg h

theorem stationKindOfByte_some {b : Byte} (h : b.toNat ≤ 4) : ∃ k, stationKindOfByte b = some k ∧ k.byte = b := by
  revert b; decide

theorem stationKindOfByte_none {b : Byte} (h : ¬ b.toNat ≤ 4) : stationKindOfByte b = none := by
  revert b; decide

theorem relayClassOfByte_some {b : Byte} (h : b.toNat ≤ 1) : ∃ c, relayClassOfByte b = some c ∧ c.byte = b := by
  revert b; decide

theorem relayClassOfByte_none {b : Byte} (h : ¬ b.toNat ≤ 1) : relayClassOfByte b = none := by
  revert b; decide

/-- The unit's range, by the kind's code. -/
theorem unitGood_iff (k : StationKind) (unit : Byte) : unitGood k unit = true ↔
    (k.byte.toNat ≤ 2 → unit.toNat ≤ 1) ∧ (k.byte.toNat = 3 → unit.toNat ≤ 15) := by
  cases k <;> simp [unitGood, StationKind.byte]

/-- The class stored is FREE for a drive or a gate, kinds 0 and 1. -/
theorem storedClass_byte (k : StationKind) (c : RelayClass) :
    (storedClass k c).byte = if k.byte.toNat ≤ 1 then 0 else c.byte := by
  cases k <;> rfl

section
variable {address kind unit cls : Byte} (present : Bool)

theorem stationEntry_none (h : ¬ (kind.toNat ≤ 4 ∧ (kind.toNat ≤ 2 → unit.toNat ≤ 1) ∧
    (kind.toNat = 3 → unit.toNat ≤ 15) ∧ cls.toNat ≤ 1)) : stationEntry present kind unit cls = none := by
  unfold stationEntry
  by_cases hk : kind.toNat ≤ 4
  · obtain ⟨k, read, rfl⟩ := stationKindOfByte_some hk
    rw [read]
    by_cases hc : cls.toNat ≤ 1
    · obtain ⟨c, readClass, rfl⟩ := relayClassOfByte_some hc
      rw [readClass]
      refine if_neg fun good => ?_
      obtain ⟨spout, head⟩ := (unitGood_iff k unit).mp good
      exact h ⟨hk, spout, head, hc⟩
    · rw [relayClassOfByte_none hc]
  · rw [stationKindOfByte_none hk]

theorem writeStation_none (h : ¬ ((1 ≤ address.toNat ∧ address.toNat ≤ 60) ∧ kind.toNat ≤ 4 ∧
    (kind.toNat ≤ 2 → unit.toNat ≤ 1) ∧ (kind.toNat = 3 → unit.toNat ≤ 15) ∧ cls.toNat ≤ 1)) :
    writeStation address present kind unit cls = none := by
  unfold writeStation
  by_cases ha : 1 ≤ address.toNat ∧ address.toNat ≤ 60
  · rw [stationEntry_none present fun fits => h ⟨ha, fits⟩]
    cases addressIx? address <;> rfl
  · rw [addressIx_none ha]

theorem writeStation_some (h : (1 ≤ address.toNat ∧ address.toNat ≤ 60) ∧ kind.toNat ≤ 4 ∧
    (kind.toNat ≤ 2 → unit.toNat ≤ 1) ∧ (kind.toNat = 3 → unit.toNat ≤ 15) ∧ cls.toNat ≤ 1) :
    ∃ (i : Fin 60) (k : StationKind) (c : RelayClass), i.val + 1 = address.toNat ∧ k.byte = kind ∧ c.byte = cls ∧
      writeStation address present kind unit cls = some fun s => s.withStations (s.stations.set i.val
        (if present then { present := true, kind := k, unit, relayClass := storedClass k c } else Station.initial)) := by
  obtain ⟨ha, hk, spout, head, hc⟩ := h
  obtain ⟨i, index, hi⟩ := addressIx_some ha
  obtain ⟨k, read, rfl⟩ := stationKindOfByte_some hk
  obtain ⟨c, readClass, rfl⟩ := relayClassOfByte_some hc
  refine ⟨i, k, c, hi, rfl, rfl, ?_⟩
  unfold writeStation stationEntry
  rw [index, read, readClass]
  dsimp only
  rw [if_pos ((unitGood_iff k unit).mpr ⟨spout, head⟩)]

end

/-- Settles O20: the fields are read or not, and the entry is written at its index. -/
theorem loadStation_inConfig : Obligations.LoadStation := by
  unfold Obligations.LoadStation
  intro tag address kind unit cls present s taken config
  have run : exec (.loadStation tag address present kind unit cls) s =
    .next (receive (replied tag (loadStation address present kind unit cls)) s) := rfl
  refine ⟨fun bad => exec_badValue taken config run (writeStation_none present bad), fun good => ?_⟩
  obtain ⟨i, k, c, hi, rfl, rfl, write⟩ := writeStation_some present good
  refine ⟨s.stations.set i.val (if present then _ else _), exec_written taken config run write rfl, fun j => ?_⟩
  rw [set_getElem_fin]
  refine ⟨fun other => if_neg ?_, fun here absent => ?_, fun here isPresent => ?_⟩
  · rintro rfl
    exact other hi
  all_goals
    obtain rfl : j = i := Fin.ext (by omega)
    rw [if_pos rfl]
  · rw [absent]
    rfl
  · rw [isPresent]
    exact ⟨rfl, rfl, rfl, storedClass_byte k c⟩

/-! ## SET_ZONE_LIMIT, SET_TIMING, SET_LIMITS (R53, R182) -/

theorem settingOfByte_some {x : Setting} {b : Byte} (h : x.val = b.toNat) : settingOfByte b = some x := by
  have range : b.toNat < 32 := h ▸ x.isLt
  rw [settingOfByte, dif_pos range]
  exact congrArg some (Fin.ext h.symm)

theorem settingOfByte_none {b : Byte} (h : ¬ b.toNat ≤ 31) : settingOfByte b = none := dif_neg (by omega)

/-- Settles O23: each request by its range, and all six outside CONFIG by the one check of R35. -/
theorem settingsAndNotConfig : Obligations.SettingsAndNotConfig := by
  unfold Obligations.SettingsAndNotConfig
  refine ⟨fun tag limit s taken config => ?_, fun tag reply position scale cycle s taken config => ?_,
    fun tag spouts cap maxDelta s taken config => ⟨fun fitted low high x hx => ?_, fun bad => ?_⟩,
    fun tag x y u v p z h a b c d s taken state => ⟨exec_notConfig taken state rfl, exec_notConfig taken state rfl,
      exec_notConfig taken state rfl, exec_notConfig taken state rfl, exec_notConfig taken state rfl,
      exec_notConfig taken state rfl⟩⟩
  · have run : exec (.setZoneLimit tag limit) s = .next (receive (replied tag (setZoneLimit limit)) s) := rfl
    split
    · rename_i good
      exact exec_written taken config run (if_pos good) rfl
    · rename_i bad
      exact exec_badValue taken config run (if_neg bad)
  · have run : exec (.setTiming tag reply position scale cycle) s =
      .next (receive (replied tag (setTiming reply position scale cycle)) s) := rfl
    have ranges : (inRange 2 250 reply && inRange 20 1000 position && inRange 100 2000 scale && inRange 200 10000 cycle) = true
        ↔ (2 ≤ reply.toNat ∧ reply.toNat ≤ 250) ∧ (20 ≤ position.toNat ∧ position.toNat ≤ 1000) ∧
          (100 ≤ scale.toNat ∧ scale.toNat ≤ 2000) ∧ (200 ≤ cycle.toNat ∧ cycle.toNat ≤ 10000) := by
      simp only [Bool.and_eq_true, inRange_iff, and_assoc]
    split
    · rename_i good
      exact exec_written taken config run (if_pos (ranges.mpr good)) rfl
    · rename_i bad
      exact exec_badValue taken config run (if_neg (mt ranges.mp bad))
  · have run : exec (.setLimits tag spouts cap maxDelta) s =
      .next (receive (replied tag (setLimits spouts cap maxDelta)) s) := rfl
    refine exec_written (g := stage fun y => { y with spoutsFitted := spouts.toNat, alarmCap := x, maxDelta }) taken config run
      ?_ rfl
    rw [writeLimits, settingOfByte_some hx]
    exact if_pos ⟨fitted, (inRange_iff _ _ _).mpr ⟨low, high⟩⟩
  · have run : exec (.setLimits tag spouts cap maxDelta) s =
      .next (receive (replied tag (setLimits spouts cap maxDelta)) s) := rfl
    refine exec_badValue taken config run ?_
    unfold writeLimits
    by_cases hc : cap.toNat ≤ 31
    · rw [settingOfByte_some (x := ⟨cap.toNat, by omega⟩) rfl]
      exact if_neg fun ⟨fitted, delta⟩ => bad ⟨fitted, (inRange_iff _ _ _).mp delta, hc⟩
    · rw [settingOfByte_none hc]

/-! ## READ_STATION, READ_ZONE, QUERY_ZONE (R35, R55, R60, R79, R195, R196) -/

theorem stationAt_some {s : State} {b : Byte} {i : Fin 60} (h : i.val + 1 = b.toNat) :
    stationAt s b = some s.stations[i] := by
  have range : 1 ≤ b.toNat ∧ b.toNat ≤ 60 := by omega
  rw [stationAt, dif_pos range]
  have same : b.toNat - 1 = i.val := by omega
  simp only [same]
  rfl

theorem stationAt_none {s : State} {b : Byte} (h : ¬ (1 ≤ b.toNat ∧ b.toNat ≤ 60)) : stationAt s b = none := dif_neg h

theorem zoneIx_of_val {b : Byte} {i : ZoneIx} (h : i.val = b.toNat) : zoneIx? b = some i := by
  rw [zoneIx?, dif_pos (show b.toNat < 64 by omega)]
  exact congrArg some (Fin.ext h.symm)

theorem zoneIx_of_large {b : Byte} (h : 63 < b.toNat) : zoneIx? b = none := dif_neg (by omega)

theorem levelOfByte_some {b : Byte} (h : b.toNat ≤ 3) : ∃ l, levelOfByte b = some l ∧ l.val = b.toNat :=
  ⟨_, dif_pos (Nat.lt_succ_of_le h), rfl⟩

theorem levelOfByte_none {b : Byte} (h : 3 < b.toNat) : levelOfByte b = none := dif_neg (by omega)

/-- A byte is the number it stands for. -/
theorem byteOfNat_toNat (b : Byte) : byteOfNat b.toNat = b :=
  (BitVec.ofNat_toNat 8 b).trans (BitVec.setWidth_eq b)

/-- The effective lower max of a HOLD zone (R60). -/
theorem effLowerMax_hold {s : State} {z : Zone} {h : Hold} (type : z.zoneType = .hold) (hold : z.hold = some h) :
    (effLowerMax s z).toNat = max (z.box.lowerMax.toNat - (s.freeboard[h]).toNat) z.box.lowerMin.toNat := by
  have holdOf : z.holdOf = some h := by rw [Zone.holdOf, if_pos type, hold]
  rw [effLowerMax, holdOf]
  have := z.box.lowerMax.isLt
  have := z.box.lowerMin.isLt
  exact (BitVec.toNat_ofNat _ _).trans (Nat.mod_eq_of_lt (by unfold offsetOf; omega))

/-- Checks 3 to 7 of R63 on an index of the table (R79). -/
theorem admits_iff {s : State} {index : Byte} {i : ZoneIx} (hi : i.val = index.toNat) (l : Level) :
    admits s index l = true ↔ i ≠ 0 ∧ i.val < s.zones.limit ∧ (s.zone i).zoneType ≠ .route ∧
      max l.val s.console.val ≤ (s.zone i).level.val ∧ (s.zone i).present = true := by
  have null : index = 0 ↔ i = 0 := by
    rw [← BitVec.toNat_inj, ← hi, Fin.ext_iff]
    rfl
  have level : (effectiveLevel s l).val = max l.val s.console.val := effectiveLevel_val s l
  unfold admits admitZone
  rw [zoneIx_of_val hi]
  dsimp only
  simp only [level, null]
  by_cases h0 : i = 0
  · simp [h0]
  by_cases h1 : s.zones.limit ≤ i.val
  · simp [h0, h1]
  by_cases h2 : (s.zone i).zoneType = .route
  · simp [h0, h1, h2]
  by_cases h3 : (s.zone i).level.val < max l.val s.console.val
  · have above : ¬ max l.val s.console.val ≤ (s.zone i).level.val := by omega
    simp only [h0, h1, h2, h3, above, if_true, if_false, false_and, and_false, Bool.false_eq_true]
  have room : i.val < s.zones.limit := by omega
  have within : max l.val s.console.val ≤ (s.zone i).level.val := by omega
  cases (s.zone i).present <;> simp [h0, h1, h2, h3, room, within]

/-- Settles O24: each table read at its index, and no index. -/
theorem readStationAndZones : Obligations.ReadStationAndZones := by
  unfold Obligations.ReadStationAndZones
  refine ⟨fun tag address s taken => ?_, fun tag index s taken => ?_, fun tag index level s taken => ?_⟩
  · have run : exec (.readStation tag address) s = .next (receive (replied tag (readStation address)) s) := rfl
    refine ⟨fun bad => exec_replied_refused taken run ?_, fun i hi => exec_replied_ok taken run ?_⟩
    · rw [readStation, stationAt_none bad]
    · rw [readStation, stationAt_some hi]
      rfl
  · have run : exec (.readZone tag index) s = .next (receive (replied tag (readZone index)) s) := rfl
    refine ⟨fun bad => exec_replied_refused taken run ?_, fun i hi => ⟨lowerMaxShown s (s.zone i),
      exec_replied_ok taken run ?_, fun type => if_neg type, fun h type hold => ?_⟩⟩
    · rw [readZone, zoneIx_of_large bad]
    · rw [readZone, zoneIx_of_val hi]
      dsimp only
      rw [zoneData, hi, byteOfNat_toNat]
      rfl
    · rw [lowerMaxShown, if_pos type, effLowerMax_hold type hold]
  · have run : exec (.queryZone tag index level) s = .next (receive (replied tag (queryZone index level)) s) := rfl
    refine ⟨fun bad => exec_replied_refused taken run ?_, fun i hi hl => ?_⟩
    · rcases bad with large | large
      · rw [queryZone, zoneIx_of_large large]
      · rw [queryZone, levelOfByte_none large]
        cases zoneIx? index <;> rfl
    · obtain ⟨l, read, hl⟩ := levelOfByte_some hl
      refine ⟨admits s index l, exec_replied_ok taken run ?_, hl ▸ admits_iff hi l⟩
      rw [queryZone, zoneIx_of_val hi, read]
      rfl

end Sys2Proof.Machine
end

section
/-! Relay frames that pass their checks, and the dispatch recheck (R38 to R42, R110, R113). -/

namespace Sys2Proof.Machine

/-! ## Tables that pass -/

theorem firstFailure_none {l : List Check} : firstFailure l = none ↔ ∀ x ∈ l, x.1 = false := by
  simp [firstFailure]

section
variable {s : State} {sp : Spout}

/-- The cap of a step is the number R110 gives. -/
theorem capOfStep_val (s : State) (r : StepRec) : (capOfStep s r).val = capNumber s r := by
  unfold capOfStep capNumber
  dsimp only
  split
  · split <;> split <;> omega
  · split <;> rfl

theorem forwardedSetting_val (x c : Setting) : (forwardedSetting x c).val = min x.val c.val := by
  unfold forwardedSetting
  split <;> omega

/-- Where GATE's table passes the spout's ACTIVE step pours, and the answer is its cap. -/
theorem gateCheck_passes (h : firstFailure (gateTable s sp) = none) : ∃ (r : StepRec) (c : Setting),
    pouringStep s sp = some r ∧ r.state = .active ∧ gateCheck s sp = .ok c ∧ c.val = capNumber s r := by
  have passes := (gateCheck_table s sp).trans (verdict_ok h)
  cases checked : gateCheck s sp with
  | error e => rw [checked] at passes; cases passes
  | ok c =>
    obtain ⟨r, pours, rfl⟩ := gateCheck_ok checked
    have last := firstFailure_none.mp h _ (List.getLast_mem (List.cons_ne_nil _ _))
    have notHeld : (r.state == .held) = false := by
      rw [← last]
      simp only [List.getLast_cons_cons, List.getLast_singleton, pours]
    obtain ⟨_, _, active | held⟩ := pouringStep_pouring pours
    · exact ⟨r, _, pours, active, rfl, capOfStep_val s r⟩
    · rw [held] at notHeld
      cases notHeld

/-- The body GATE's cap gives a request above 0 (R39, R42). -/
theorem gateBody_of_cap {r : StepRec} {c : Setting} (hc : c.val = capNumber s r) (g : GateFields) :
    (forwardedSetting g.setting c).val = min g.setting.val (capNumber s r) ∧
      gateBody g c = .gate g (forwardedSetting g.setting c) (decide (capNumber s r < g.setting.val)) := by
  rw [forwardedSetting_val, gateBody, hc]
  exact ⟨rfl, rfl⟩

end

/-! ## Frames that are queued -/

/-- Settles O34: the checks pass, and what follows them is the entry alone. -/
theorem gateAndPlainQueued : Obligations.GateAndPlainQueued := by
  unfold Obligations.GateAndPlainQueued
  refine ⟨fun tag dest g s taken hd arrives => ?_, fun tag dest data s taken hl hd arrives => ?_⟩
  · have run : exec (.gate tag dest g) s = .next (arbitrate (gateArrival tag dest g (heard s))) := by
      show Host.Outcome.next (receive (takeGate tag dest g) s) = _
      rw [receive_taken taken, takeGate, relayTaken_station hd]
    have arrives : arrivalCheck (heard s) tag dest (.gate g) = none := (arrivalCheck_table _ _ _ _).trans arrives
    refine ⟨fun zero => ?_, fun above passes => ?_⟩
    · rw [run, gateArrival, arrives]
      dsimp only
      rw [if_pos zero]
      rfl
    · obtain ⟨r, c, pours, active, checked, hc⟩ := gateCheck_passes passes
      obtain ⟨forwarded, body⟩ := gateBody_of_cap hc g
      have checked : gateCheck (heard s) g.spout = .ok c := checked
      refine ⟨r, _, pours, active, forwarded, ?_⟩
      rw [run, gateArrival, arrives]
      dsimp only
      rw [if_neg above, checked, ← body]
      rfl
  · have run : exec (.plain tag dest data) s = .next (arbitrate (plainArrival tag dest data (heard s))) := by
      show Host.Outcome.next (if data.length ≤ 48 then receive (takePlain tag dest data) s else _) = _
      rw [if_pos hl, receive_taken taken, takePlain, relayTaken_station hd]
    have arrives : arrivalCheck (heard s) tag dest .plain = none := (arrivalCheck_table _ _ _ _).trans arrives
    rw [run, plainArrival, arrives]
    rfl

/-! ## The dispatch recheck -/

/-- The target's hold at TRIP, by the target's byte; no zone stands above index 63. -/
theorem targetTrip_row (s : State) (b : Byte) :
    ((zoneIx? b).bind fun i => trippedHold s (s.zone i)).map (fun h => (Code.dustTrip, holdByte h))
      = if overTrip s (zoneAt s b) = true then some (.dustTrip, zoneHold (zoneAt s b)) else none := by
  cases hz : zoneIx? b with
  | none => rw [zoneAt, hz]; rfl
  | some i => rw [zoneAt_of_index s hz, ← trippedHold_row]; rfl

/-- The recheck of a MOVE (R41), row by row. -/
def moveRows (s : State) (m : MoveFields) (cls : MoveClass) : List Check :=
  [(!targetStands (s.spouts.get m.spout) cls m.target, .targetDropped, m.target),
   (cls == .zoneChange && overTrip s (zoneAt s m.target), .dustTrip, zoneHold (zoneAt s m.target)),
   (cls == .sameZone && overTrip s (s.zone (s.spouts.get m.spout).current)
      && decide ((s.spouts.get m.spout).position.lower.toNat < m.lower.toNat), .dustTrip,
     zoneHold (s.zone (s.spouts.get m.spout).current))]

theorem moveRecheck_table (s : State) (m : MoveFields) (cls : MoveClass) :
    moveRecheck s m cls = firstFailure (moveRows s m cls) := by
  unfold moveRecheck moveRows
  dsimp only
  refine firstFailure_step Iff.rfl fun _ => ?_
  cases cls with
  | recovery => rfl
  | zoneChange =>
    dsimp only
    rw [targetTrip_row, firstFailure_cons]
    rfl
  | sameZone =>
    dsimp only
    rw [firstFailure_cons, if_neg (by simp), overTrip_eq]
    cases ht : trippedHold s (s.zone (s.spouts.get m.spout).current) with
    | none => rfl
    | some h =>
      rw [trippedHold_hold ht]
      simp [firstFailure]

/-- The rows of the recheck that go by the entry's kind. -/
def bodyRows (s : State) : RelayBody → List Check
  | .plain _ => []
  | .gate g _ _ => if g.setting = 0 then [] else gateTable s g.spout
  | .move m cls _ => moveRows s m cls

theorem dispatchTable_eq (s : State) (e : RelayEntry) : dispatchTable s e =
    ((arrivalTable s e.tag e.dest e.body.ask).drop 2).take 5 ++ bodyRows s e.body := by
  unfold dispatchTable bodyRows
  congr 1
  cases e.body with
  | move m cls c => cases cls <;> rfl
  | gate g x t => rfl
  | plain d => rfl

theorem firstFailure_dispatchTable (s : State) (e : RelayEntry) :
    firstFailure (dispatchTable s e) = (mapCheck s e.dest e.body.ask).or (firstFailure (bodyRows s e.body)) := by
  rw [dispatchTable_eq, firstFailure_append, ← mapCheck_table]

/-- Settles O35: the map checks of the arrival, then the checks of the entry's kind. -/
theorem dispatchRecheck : Obligations.DispatchRecheck := by
  unfold Obligations.DispatchRecheck
  intro s e
  rw [firstFailure_dispatchTable]
  unfold dispatchCheck
  cases mapCheck s e.dest e.body.ask with
  | some y => exact ⟨fun x hx => by cases hx; rfl, fun none => (nomatch none)⟩
  | none =>
    rw [Option.none_or]
    cases hb : e.body with
    | plain d =>
      exact ⟨fun x hx => (nomatch hx), fun _ => ⟨fun _ _ _ h => (nomatch h), fun _ _ => rfl, fun _ _ _ h => (nomatch h),
        fun _ _ _ h => (nomatch h)⟩⟩
    | move m cls c =>
      simp only [bodyRows, ← moveRecheck_table]
      refine ⟨fun x hx => ?_, fun none => ⟨fun _ _ _ _ => ?_, fun _ h => (nomatch h), fun _ _ _ h => (nomatch h),
        fun _ _ _ h => (nomatch h)⟩⟩
      · rw [hx]
      · rw [none]
    | gate g fwd t =>
      simp only [bodyRows]
      by_cases zero : g.setting = 0
      · simp only [if_pos zero]
        refine ⟨fun x hx => (nomatch hx), fun _ => ⟨fun _ _ _ h => (nomatch h), fun _ h => (nomatch h), fun _ _ _ h _ => ?_,
          fun _ _ _ h above => ?_⟩⟩
        · cases h; rfl
        · cases h; exact absurd zero above
      · simp only [if_neg zero]
        refine ⟨fun x hx => ?_, fun passes => ⟨fun _ _ _ h => (nomatch h), fun _ h => (nomatch h), fun _ _ _ h none => ?_,
          fun _ _ _ h _ => ?_⟩⟩
        · rw [gateCheck_error hx]
        · cases h; exact absurd none zero
        · cases h
          obtain ⟨r, c, pours, _, checked, hc⟩ := gateCheck_passes passes
          obtain ⟨forwarded, body⟩ := gateBody_of_cap hc g
          refine ⟨r, _, pours, forwarded, ?_⟩
          rw [checked, ← body]

end Sys2Proof.Machine
end

section
/-! A pour block begins (R47, R107, R108, R115, R130). -/

namespace Sys2Proof.Machine

/-- The QUEUED GATE entries of a spout above 0, which a pour block answers (R47). -/
def pourEntries (sp : Spout) (s : State) : List RelayEntry :=
  s.relayQueue.filter fun e => !e.onLine && isGateAboveZero sp e

theorem pourBlock_none {s : State} {sp : Spout} (h : blockCause s sp = 0) : pourBlock s sp = none := by
  have byte := pourBlock_byte s sp
  rw [if_pos h, Option.map_eq_none_iff] at byte
  exact byte

theorem pourBlock_some {s : State} {sp : Spout} (h : blockCause s sp ≠ 0) :
    ∃ c, pourBlock s sp = some c ∧ c.byte = blockCause s sp ∧ (c = .halt ↔ blockCause s sp = 4) := by
  have byte := pourBlock_byte s sp
  rw [if_neg h, Option.map_eq_some_iff] at byte
  obtain ⟨c, found, hc⟩ := byte
  refine ⟨c, found, hc, ?_⟩
  rw [← hc]
  cases c <;> decide

/-- What an evaluation that finds a pour block begin leaves. -/
theorem evaluateBlock_begins {s : State} {sp : Spout} (h : blockCause s sp ≠ 0) : evaluateBlock false sp s =
    ((if blockCause s sp = 4 then s else refusedAll (pourEntries sp s) .pourBlocked (blockCause s sp) s).withOrders
      (closedOrders sp s)).withPlan (heldPlan sp s) := by
  obtain ⟨c, found, byte, halt⟩ := pourBlock_some h
  unfold evaluateBlock
  rw [found]
  dsimp only
  rw [closeUnlessClosed_eq, preempt_refusedAll, holdStep_eq, byte]
  simp only [halt]
  split <;> rfl

theorem mem_refusedAll {e : RelayEntry} {es : List RelayEntry} (c : Code) (x : Byte) {s : State}
    (h : e ∈ (refusedAll es c x s).relayQueue) : e ∈ s.relayQueue ∧ e ∉ es := by
  obtain ⟨mem, stays⟩ := List.mem_filter.mp h
  refine ⟨mem, fun answered => ?_⟩
  rw [Bool.not_eq_true', List.any_eq_false] at stays
  exact stays e answered (beq_self_eq_true e.tag)

/-- Settles O46: the evaluation's three outcomes. -/
theorem pourBlockBegins : Obligations.PourBlockBegins := by
  unfold Obligations.PourBlockBegins
  intro s sp
  refine ⟨?_, fun none => ?_, fun cause => ?_⟩
  · unfold evaluateBlock
    cases pourBlock s sp <;> rfl
  · unfold evaluateBlock
    rw [pourBlock_none none]
  · dsimp only
    rw [evaluateBlock_begins cause]
    refine ⟨rfl, fun r active => ?_, fun none => ?_, fun other => ?_, fun halt => ?_, ?_⟩
    · show heldPlan sp s = _
      rw [heldPlan, active]
    · show heldPlan sp s = _
      rw [heldPlan, none]
    · rw [if_neg other]
      refine ⟨rfl, fun e he => ?_⟩
      obtain ⟨mem, stays⟩ := mem_refusedAll .pourBlocked (blockCause s sp) he
      exact ⟨mem, Bool.eq_false_iff.mpr fun hit => stays (List.mem_filter.mpr ⟨mem, hit⟩)⟩
    · rw [if_pos halt]
      exact ⟨rfl, rfl⟩
    · split <;> exact ⟨rfl, rfl, rfl, rfl, rfl⟩

end Sys2Proof.Machine
end

section
/-! The power-on values, and RUN, HALT and RESUME that change nothing (R36, R176, R187, R193 to R195). -/

namespace Sys2Proof.Machine

/-- Settles O14: each initial value, field by field. -/
theorem powerOnValues : Obligations.PowerOnValues := by
  unfold Obligations.PowerOnValues
  refine ⟨fun _ _ _ => rfl, fun _ => ⟨rfl, rfl⟩, rfl, rfl, rfl, rfl, rfl, rfl, rfl, ?settings, ?stations, rfl, rfl,
    ?zones, ?holds, rfl, ?spouts, rfl, rfl, ?heads, rfl, rfl, rfl, ?bills, rfl, rfl, ?notices, rfl⟩
  case settings =>
    rintro x (rfl | rfl) <;> rfl
  case stations =>
    exact fun i => Vector.getElem_replicate i.isLt
  case zones =>
    exact fun i => Vector.getElem_replicate i.isLt
  case holds =>
    exact fun h => ⟨Vector.getElem_replicate h.isLt, Vector.getElem_replicate h.isLt⟩
  case spouts =>
    intro sp
    cases sp <;> exact ⟨rfl, rfl, rfl, rfl, rfl, rfl⟩
  case heads =>
    exact fun i => Vector.getElem_replicate i.isLt
  case bills =>
    exact fun i => Vector.getElem_replicate i.isLt
  case notices =>
    exact fun n => ⟨Vector.getElem_replicate n.isLt, Vector.getElem_replicate n.isLt, Vector.getElem_replicate n.isLt⟩

/-! ## The first item of the map that fails -/

/-- The two data bytes of a map item. -/
def itemBytes (x : Bool × Byte × Byte) : List Byte := [x.2.1, x.2.2]

/-- A spout's three items (R36). -/
def spoutRows (s : State) (sp : Spout) : List (Bool × Byte × Byte) :=
  spoutItems.map fun x => (stationCount s x.2 sp.byte != 1, x.1, sp.byte)

def headRows (s : State) : List (Bool × Byte × Byte) :=
  (List.finRange 16).map fun i => (!headStationGood s i, 4, byteOfNat i.val)

theorem spoutItemFault_rows (s : State) (sp : Spout) :
    spoutItemFault s sp = ((spoutRows s sp).find? fun x => x.1).map itemBytes := by
  rw [spoutItemFault, spoutRows, List.find?_map, Option.map_map]
  rfl

theorem headItemFault_rows (s : State) : headItemFault s = ((headRows s).find? fun x => x.1).map itemBytes := by
  rw [headItemFault, headRows, List.find?_map, Option.map_map]
  rfl

theorem mapItems_rows (s : State) : mapItems s =
    spoutRows s .a ++ (if s.settings.staged.spoutsFitted = 2 then spoutRows s .b else []) ++ headRows s := by
  unfold mapItems headRows headStationGood
  simp only [Bool.not_or, Bool.not_not]
  rfl

/-- The map's fault names the first item of the table that fails. -/
theorem mapFault_items (s : State) : mapFault s = ((mapItems s).find? fun x => x.1).map itemBytes := by
  have second : (if s.settings.staged.spoutsFitted = 2 then spoutItemFault s .b else none)
      = ((if s.settings.staged.spoutsFitted = 2 then spoutRows s .b else []).find? fun x => x.1).map itemBytes := by
    split
    · exact spoutItemFault_rows s .b
    · rfl
  rw [mapFault, second, spoutItemFault_rows, headItemFault_rows, mapItems_rows, List.find?_append, List.find?_append]
  cases (spoutRows s .a).find? fun x => x.1 with
  | some x => rfl
  | none =>
    cases (if s.settings.staged.spoutsFitted = 2 then spoutRows s .b else []).find? fun x => x.1 <;> rfl

theorem spoutStations_of_fault {s : State} {sp : Spout} (h : spoutItemFault s sp = none) : SpoutStations s sp := by
  rw [spoutItemFault, Option.map_eq_none_iff, List.find?_eq_none] at h
  simpa [spoutItems, SpoutStations] using h

theorem headStations_of_fault {s : State} (h : headItemFault s = none) : HeadStations s := by
  rw [headItemFault, Option.map_eq_none_iff, List.find?_eq_none] at h
  intro i present
  have good : headStationGood s i = true := by simpa using h i (List.mem_finRange i)
  unfold headStationGood at good
  rw [present] at good
  split at good
  · rename_i x found
    exact ⟨x, found, good⟩
  · cases good

/-- A map in which no item fails is complete (R36). -/
theorem mapComplete_of_fault {s : State} (h : mapFault s = none) : MapComplete s := by
  unfold mapFault at h
  split at h
  · cases h
  · rename_i first
    split at h
    · cases h
    · rename_i second
      refine ⟨spoutStations_of_fault first, fun two => ?_, headStations_of_fault h⟩
      rw [if_pos two] at second
      exact spoutStations_of_fault second

/-- A map that is not complete has a first item that fails, and its bytes are the fault. -/
theorem mapFault_some {s : State} (h : ¬ MapComplete s) :
    ∃ x, (mapItems s).find? (fun y => y.1) = some x ∧ mapFault s = some (itemBytes x) := by
  have items := mapFault_items s
  cases found : (mapItems s).find? fun y => y.1 with
  | none =>
    rw [found] at items
    exact absurd (mapComplete_of_fault items) h
  | some x =>
    rw [found] at items
    exact ⟨x, rfl, items⟩

/-- The settings test that fails first (R176). -/
theorem settingsFault_some {x : Settings} (h : ¬ SettingsAgree x) :
    settingsFault x = some [if x.replyTimeout.toNat < x.positionPeriod.toNat then 2 else 1] := by
  unfold settingsFault
  by_cases reply : x.replyTimeout.toNat < x.positionPeriod.toNat
  · rw [if_neg (Nat.not_le.mpr reply), if_pos (Nat.not_le.mp fun scale => h ⟨reply, scale⟩), if_pos reply]
  · rw [if_pos (Nat.not_lt.mp reply), if_neg reply]

/-! ## Requests of run control that change nothing -/

section
variable {c : Instr} {tag : Byte} {s : State} {op : State → Reply}

/-- A taken request of run control that leaves the state alone: its REPLY, then the arbiter. -/
theorem exec_acts_unchanged {code : Code} {data : List Byte} (taken : Taken s)
    (run : exec c s = .next (receive (repliedActs tag op) s))
    (h : op (heard s) = { code := code, data := data, state := heard s }) :
    exec c s = .next (arbitrate (replyTo tag code data s)) := by
  rw [run, receive_taken taken, repliedActs, replied, h]
  rfl

end

section
variable {s : State}

/-- RUN in CONFIG with a map that is not complete. -/
theorem runRequest_incomplete {d : List Byte} (config : s.runc.state = .config) (h : mapFault s = some d) :
    runRequest s = { code := .mapIncomplete, data := d, state := s } := by
  rw [runRequest, config]
  dsimp only
  rw [h]

/-- RUN in CONFIG with a complete map and settings that do not agree. -/
theorem runRequest_disagree {d : List Byte} (config : s.runc.state = .config) (complete : mapFault s = none)
    (h : settingsFault s.settings.staged = some d) :
    runRequest s = { code := .badValue, data := d, state := s } := by
  rw [runRequest, config]
  dsimp only
  rw [complete]
  dsimp only
  rw [h]

/-- RESUME in HALT with a fitted gate that is not CLOSED. -/
theorem resumeRequest_open {sp : Spout} (halt : s.runc.state = .halt) (h : unclosedGate s = some sp) :
    resumeRequest s = { code := .gatesNotClosed, data := [sp.byte], state := s } := by
  rw [resumeRequest, halt]
  dsimp only
  rw [h]

/-- The first fitted gate that is not CLOSED is spout A's where that one is not. -/
theorem unclosedGate_a (h : (s.gates.get .a).state ≠ .rest .closed) : unclosedGate s = some .a := by
  have first : fittedSpouts s = .a :: (fittedSpouts s).tail := by
    rw [fittedSpouts_eq, spoutsOf]
    split <;> rfl
  rw [unclosedGate, first]
  exact List.find?_cons_of_pos (bne_iff_ne.mpr h)

theorem unclosedGate_b (closed : (s.gates.get .a).state = .rest .closed) (fit : fitted s .b = true)
    (h : (s.gates.get .b).state ≠ .rest .closed) : unclosedGate s = some .b := by
  have both : fittedSpouts s = [.a, .b] := by
    unfold fittedSpouts bothSpouts
    rw [List.filter_cons_of_pos rfl, List.filter_cons_of_pos fit, List.filter_nil]
  rw [unclosedGate, both, List.find?_cons_of_neg (by simp [closed])]
  exact List.find?_cons_of_pos (bne_iff_ne.mpr h)

end

/-- Settles O17: each request by the run state, with the check that fails. -/
theorem runHaltResumeWithoutChange : Obligations.RunHaltResumeWithoutChange := by
  unfold Obligations.RunHaltResumeWithoutChange
  intro tag s taken
  refine ⟨fun run => ⟨?runRun, ?resumeRun⟩, fun halt => ⟨?runHalt, ?haltHalt⟩,
    fun config => ⟨?haltConfig, ?resumeConfig⟩, fun config incomplete => ?incomplete,
    fun config complete disagree => ?disagree, fun halt notClosed => ?gateA, fun halt closed fit notClosed => ?gateB⟩
  case runRun =>
    exact exec_acts_unchanged taken rfl (by rw [runRequest, show (heard s).runc.state = .run from run]; rfl)
  case resumeRun =>
    exact exec_acts_unchanged taken rfl (by rw [resumeRequest, show (heard s).runc.state = .run from run]; rfl)
  case runHalt =>
    exact exec_acts_unchanged taken rfl (by rw [runRequest, show (heard s).runc.state = .halt from halt]; rfl)
  case haltHalt =>
    exact exec_acts_unchanged taken rfl (by rw [haltRequest, show (heard s).runc.state = .halt from halt]; rfl)
  case haltConfig =>
    exact exec_acts_unchanged taken rfl (by rw [haltRequest, show (heard s).runc.state = .config from config]; rfl)
  case resumeConfig =>
    exact exec_acts_unchanged taken rfl (by rw [resumeRequest, show (heard s).runc.state = .config from config]; rfl)
  case incomplete =>
    obtain ⟨x, found, fault⟩ := mapFault_some incomplete
    exact ⟨x, found, exec_acts_unchanged taken rfl (runRequest_incomplete (s := heard s) config fault)⟩
  case disagree =>
    exact exec_acts_unchanged taken rfl
      (runRequest_disagree (s := heard s) config (mapFault_none complete) (settingsFault_some disagree))
  case gateA =>
    exact exec_acts_unchanged taken rfl (resumeRequest_open (s := heard s) halt (unclosedGate_a notClosed))
  case gateB =>
    exact exec_acts_unchanged taken rfl (resumeRequest_open (s := heard s) halt (unclosedGate_b closed fit notClosed))

end Sys2Proof.Machine
end

section
/-! A MOVE that passes its checks is accepted and queued (R62, R68, R69). -/

namespace Sys2Proof.Machine

/-! ## A record that gives no block a cause -/

section
variable {sp : Spout} {s t : State} {q : SpoutRec}

/-- A record of the same zone that is neither LOST nor in overreach blocks the pour only where it was blocked. -/
theorem RecordChange.blockCause_before (h : RecordChange sp s q t) (found : q.state ≠ .lost) (shallow : q.overreach = false)
    (stays : q.current = (s.spouts.get sp).current) (blocked : blockCause t sp ≠ 0) : blockCause s sp ≠ 0 := by
  have trip : overTrip t (t.zone q.current) = overTrip s (s.zone (s.spouts.get sp).current) := by
    obtain ⟨o, zone⟩ := h.zones q.current
    rw [zone, stays, h.state]
    rfl
  have fit : fitted t sp = fitted s sp := by rw [h.state]; rfl
  have runc : t.runc = s.runc := by rw [h.state]; rfl
  unfold blockCause at blocked ⊢
  dsimp only at blocked ⊢
  rw [h.record, trip, fit, runc, if_neg found, shallow] at blocked
  revert blocked
  repeat' split
  all_goals simp_all

/-- Without a cause the evaluation changes nothing, whatever it found before. -/
theorem evaluateBlock_clear (h : blockCause s sp = 0) (was : Bool) : evaluateBlock was sp s = s := by
  unfold evaluateBlock
  rw [pourBlock_none h]
  cases was <;> rfl

/-- Such a record is made known without a pour block's beginning: outside PSEQ's and GATE's work only the record and the
claims changed. -/
theorem RecordChange.known_unblocking (h : RecordChange sp s q t) (found : q.state ≠ .lost) (shallow : q.overreach = false)
    (stays : q.current = (s.spouts.get sp).current) : withoutPlan (tcuKnown s t) = withoutPlan t := by
  have noBlock : evaluateBlock (decide (blockCause s sp ≠ 0)) sp t = t := by
    by_cases blocked : blockCause t sp = 0
    · exact evaluateBlock_clear blocked _
    · rw [decide_eq_true (h.blockCause_before found shallow stays blocked)]
      exact (pourBlockBegins t sp).1
  have notLost : ¬ ((s.spouts.get sp).state ≠ .lost ∧ q.state = .lost) := fun k => found k.2
  have notDeep : ¬ (q.overreach = true ∧ (s.spouts.get sp).overreach = false) := by simp [shallow]
  rw [h.known]
  unfold recordKnown
  dsimp only
  rw [← h.state, if_neg notLost, if_neg notLost, if_neg notDeep, noBlock]
  split
  · rfl
  · rw [activationTest_withoutPlan, leaveHold_keeps keepsPlan_withoutPlan]

/-- Where two states agree outside PSEQ's and GATE's work, a reading that is not of that work agrees. -/
theorem reads_of_withoutPlan {κ : Type} {t u : State} (h : withoutPlan u = withoutPlan t) (k : State → κ)
    (hk : ∀ x, k (withoutPlan x) = k x) : k u = k t := by
  rw [← hk u, h, hk t]

end

/-! ## Acceptance -/

/-- The record of a spout whose MOVE is accepted (R68). -/
def acceptedRecord (r : SpoutRec) (cls : MoveClass) (i : ZoneIx) : SpoutRec :=
  { r with state := .moving, target := i, recovery := cls == .recovery, overreach := false }

/-- The spout MOVING to its claimed target, before the overreach test. -/
def accepting (sp : Spout) (cls : MoveClass) (i : ZoneIx) (s : State) : State :=
  setSpout sp { s.spouts.get sp with state := .moving, target := i, recovery := cls == .recovery } (claimZone sp i s)

theorem acceptMove_sameZone (sp : Spout) (i : ZoneIx) (s : State) : acceptMove sp .sameZone i s = s := rfl

theorem acceptMove_eq {cls : MoveClass} (h : cls ≠ .sameZone) (sp : Spout) (i : ZoneIx) (s : State) :
    acceptMove sp cls i s = tcuKnown s (testOverreach sp (accepting sp cls i s)) := by
  cases cls with
  | sameZone => exact absurd rfl h
  | zoneChange => rfl
  | recovery => rfl

/-- The overreach test clears the flag of a spout that is MOVING. -/
theorem accepting_change (sp : Spout) (cls : MoveClass) (i : ZoneIx) (s : State) :
    RecordChange sp s (acceptedRecord (s.spouts.get sp) cls i) (testOverreach sp (accepting sp cls i s)) := by
  have moving : RecordChange sp s _ (accepting sp cls i s) :=
    ((RecordChange.refl sp s).setZoneOwner i (some sp)).setSpout _
  have level : overreachTest (accepting sp cls i s) sp = false := Bool.eq_false_iff.mpr fun deep => by
    obtain ⟨settled, _⟩ := moving.overreachTest_iff.mp deep
    cases settled
  have change := moving.testOverreach
  rw [level] at change
  exact change

/-- An acceptance that moves the spout to another zone or recovers it writes its record and its claim, and outside PSEQ's
and GATE's work nothing else. -/
theorem acceptMove_moving {cls : MoveClass} (h : cls ≠ .sameZone) (sp : Spout) (i : ZoneIx) (s : State) : ∃ z : ZoneTable,
    withoutPlan (acceptMove sp cls i s)
      = withoutPlan ((s.withSpouts (s.spouts.set sp (acceptedRecord (s.spouts.get sp) cls i))).withZones z) ∧
    z.limit = s.zones.limit ∧
    ∀ j : ZoneIx, z.entries[j] = if j = i then { s.zone i with owner := some sp } else s.zone j := by
  have change := accepting_change sp cls i s
  refine ⟨_, ?_, change.limit, fun j => setZoneOwner_zone i j (some sp) s⟩
  rw [acceptMove_eq h, change.known_unblocking (fun k => nomatch k) rfl rfl]
  exact congrArg withoutPlan change.state

/-- A MOVE whose tables pass is accepted with its class, and joins the queue. -/
theorem moveArrival_accepted {tag dest : Byte} {m : MoveFields} {s : State} (hl : s.zones.limit ≤ 64)
    (ha : firstFailure (arrivalTable s tag dest (.move m)) = none) (hm : firstFailure (moveTable s m) = none) :
    ∃ i : ZoneIx, i.val = m.target.toNat ∧ moveArrival tag dest m s =
      appendEntry tag dest (.move m (moveClass s m) (takesClaim s m.spout (moveClass s m) i))
        (acceptMove m.spout (moveClass s m) i s) := by
  obtain ⟨_, _, _, accepts⟩ := moveChecksInOrder tag dest m s hl
  obtain ⟨i, index, checked⟩ := accepts hm
  refine ⟨i, index, ?_⟩
  rw [moveArrival, arrivalCheck_table, ha]
  dsimp only
  rw [checked]

/-- Settles O32: the acceptance, by the class, and then the entry. -/
theorem moveQueued : Obligations.MoveQueued := by
  unfold Obligations.MoveQueued
  intro tag dest m s hl taken hd arrives passes
  obtain ⟨i, index, arrival⟩ := moveArrival_accepted (s := heard s) hl arrives passes
  have run : exec (.move tag dest m) s = .next (arbitrate (moveArrival tag dest m (heard s))) := by
    show Host.Outcome.next (receive (takeMove tag dest m) s) = _
    rw [receive_taken taken, takeMove, relayTaken_station hd]
  have cls : moveClass (heard s) m = moveClass s m := rfl
  have claim : takesClaim (heard s) m.spout (moveClass s m) i
      = (moveClass s m != .sameZone && (s.zone i).owner != some m.spout) := rfl
  rw [arrival, cls, claim] at run
  refine ⟨_, i, index, run, ?_⟩
  by_cases same : moveClass s m = .sameZone
  · rw [same, acceptMove_sameZone]
    exact ⟨rfl, rfl, fun _ => ⟨rfl, rfl, rfl, rfl⟩, fun h => absurd rfl h, rfl, rfl, rfl, rfl, rfl, rfl, rfl, rfl, rfl,
      rfl, rfl⟩
  · obtain ⟨z, left, limit, zones⟩ := acceptMove_moving same m.spout i (heard s)
    generalize acceptMove m.spout (moveClass s m) i (heard s) = u at left
    have reads {κ : Type} (k : State → κ) (hk : ∀ x, k (withoutPlan x) = k x) := reads_of_withoutPlan left k hk
    refine ⟨?queue, ?sport, fun h => absurd h same, fun _ => ⟨reads State.spouts fun _ => rfl, fun j => ?claims⟩, ?limit,
      reads State.gates fun _ => rfl, reads State.line fun _ => rfl, reads State.runc fun _ => rfl,
      reads State.heads fun _ => rfl, reads State.holdDust fun _ => rfl, reads State.settings fun _ => rfl,
      reads State.stations fun _ => rfl, reads State.polls fun _ => rfl, reads State.unbilled fun _ => rfl,
      reads State.clock fun _ => rfl⟩
    case queue =>
      exact congrArg (· ++ _) (reads State.relayQueue fun _ => rfl)
    case sport =>
      exact congrArg (fun x : Sport => { x with reserved := x.reserved ++ [tag] }) (reads State.sport fun _ => rfl)
    case claims =>
      exact (congrArg (fun x : ZoneTable => x.entries[j]) (reads State.zones fun _ => rfl)).trans (zones j)
    case limit =>
      exact (congrArg ZoneTable.limit (reads State.zones fun _ => rfl)).trans limit

end Sys2Proof.Machine
end

section
/-! The orders and the HELD steps of HALT entry (R21, R115, R130, R179). -/

namespace Sys2Proof.Machine

/-! ## Gate orders and the ALL_STOP in the order queue -/

theorem byteOfNat_address {i j : Fin 60} (h : byteOfNat (i.val + 1) = byteOfNat (j.val + 1)) : i = j := by
  have val := congrArg BitVec.toNat h
  unfold byteOfNat at val
  rw [BitVec.toNat_ofNat, BitVec.toNat_ofNat] at val
  omega

/-- A spout's station of a kind is a field address whose entry serves it. -/
theorem stationOf_serves {s : State} {kind : StationKind} {sp : Spout} {st : Byte} (h : stationOf s kind sp = some st) :
    ∃ i : Fin 60, byteOfNat (i.val + 1) = st ∧ (s.stations[i]).serves kind sp.byte = true := by
  obtain ⟨i, found, address⟩ := Option.map_eq_some_iff.mp h
  exact ⟨i, address, List.find?_some (p := fun i : Fin 60 => (s.stations[i]).serves kind sp.byte) found⟩

/-- No field station has the broadcast address. -/
theorem stationOf_ne_broadcast {s : State} {kind : StationKind} {sp : Spout} {st : Byte}
    (h : stationOf s kind sp = some st) : st ≠ 63 := by
  obtain ⟨i, rfl, _⟩ := stationOf_serves h
  intro broadcast
  have val := congrArg BitVec.toNat broadcast
  unfold byteOfNat at val
  rw [BitVec.toNat_ofNat] at val
  have := i.isLt
  change (i.val + 1) % 256 = 63 at val
  omega

/-- The two spouts have different stations of a kind. -/
theorem stationOf_unit {s : State} {kind : StationKind} {sp sq : Spout} {st : Byte} (h : stationOf s kind sp = some st)
    (k : stationOf s kind sq = some st) : sp = sq := by
  obtain ⟨i, hi, serves⟩ := stationOf_serves h
  obtain ⟨j, hj, serves'⟩ := stationOf_serves k
  obtain rfl := byteOfNat_address (hi.trans hj.symm)
  simp only [Station.serves, Bool.and_eq_true, beq_iff_eq] at serves serves'
  have same : sp.byte = sq.byte := serves.2.symm.trans serves'.2
  cases sp with
  | a =>
    cases sq with
    | a => rfl
    | b => cases same
  | b =>
    cases sq with
    | a => cases same
    | b => rfl

theorem gate_ne_allStop (sp : Spout) (x : Setting) : OrderKind.gate sp x ≠ .allStop := nofun

theorem mem_queueOrder_self {o : Order} (h : o.kind ≠ .allStop) (q : List Order) : o ∈ queueOrder o q := by
  obtain ⟨joins, _, replaces⟩ := queueOrder_cases o q
  by_cases waits : ∃ x ∈ q, x.station = o.station
  · rw [replaces waits h]
    obtain ⟨x, mem, same⟩ := waits
    exact List.mem_map.mpr ⟨x, mem, if_pos same⟩
  · rw [joins fun x mem same => waits ⟨x, mem, same⟩]
    exact List.mem_append_right _ (List.mem_singleton_self o)

theorem mem_queueOrder_other {o x : Order} {q : List Order} (mem : x ∈ q) (h : x.station ≠ o.station) :
    x ∈ queueOrder o q := by
  unfold queueOrder
  split
  · split
    · exact mem
    · exact List.mem_map.mpr ⟨x, mem, if_neg h⟩
  · exact List.mem_append_left _ mem

/-- The ALL_STOP of HALT entry (R179). -/
def haltStop : Order := { station := 63, kind := .allStop, poster := .runc }

/-- The ALL_STOP waits behind the orders that waited before, whose stations are as they were. -/
def StopWaits (old q : List Order) : Prop :=
  ∃ before closes : List Order, q = before ++ haltStop :: closes ∧ before.map (·.station) = old.map (·.station)

theorem StopWaits.queueOrder {old q : List Order} (h : StopWaits old q) {o : Order} (kind : o.kind ≠ .allStop)
    (station : o.station ≠ 63) : StopWaits old (queueOrder o q) := by
  obtain ⟨before, closes, rfl, stations⟩ := h
  obtain ⟨joins, _, replaces⟩ := queueOrder_cases o (before ++ haltStop :: closes)
  by_cases waits : ∃ x ∈ before ++ haltStop :: closes, x.station = o.station
  · rw [replaces waits kind]
    refine ⟨before.map fun x => if x.station = o.station then o else x,
      closes.map fun x => if x.station = o.station then o else x, ?_, ?_⟩
    · rw [List.map_append, List.map_cons, if_neg (show haltStop.station ≠ o.station from Ne.symm station)]
    · rw [← stations, List.map_map]
      refine List.map_congr_left fun x _ => ?_
      show (if x.station = o.station then o else x).station = x.station
      split
      · rename_i same
        exact same.symm
      · rfl
  · rw [joins fun x mem same => waits ⟨x, mem, same⟩]
    exact ⟨before, closes ++ [o], by rw [List.append_assoc, List.cons_append], stations⟩

section
variable {s t : State} {sp sq : Spout} {st : Byte}

theorem StopWaits.closedOrders {old : List Order} (h : StopWaits old s.orders) : StopWaits old (closedOrders sp s) := by
  unfold Machine.closedOrders withGateOrder
  split
  · exact h
  · split
    · rename_i st station
      exact h.queueOrder (gate_ne_allStop sp 0) (stationOf_ne_broadcast station)
    · exact h

/-- The close of a gate that is not CLOSED waits. -/
theorem mem_closedOrders (gate : (s.gates.get sp).state ≠ .rest .closed) (station : stationOf s .feedGate sp = some st) :
    { station := st, kind := .gate sp 0, poster := .gate } ∈ closedOrders sp s := by
  unfold Machine.closedOrders withGateOrder
  rw [if_neg fun h => gate h.1, station]
  exact mem_queueOrder_self (gate_ne_allStop sp 0) _

/-- A close leaves the orders for other stations. -/
theorem mem_closedOrders_other {o : Order} (mem : o ∈ s.orders) (h : stationOf s .feedGate sp ≠ some o.station) :
    o ∈ closedOrders sp s := by
  unfold Machine.closedOrders withGateOrder
  split
  · exact mem
  · split
    · rename_i st station
      exact mem_queueOrder_other mem fun same => h (by rw [station, same])
    · exact mem

end

/-! ## HELD steps -/

/-- The step of a number is HELD. -/
def StepHeld (n : Word16) (s : State) : Prop := (findStep s n).map (·.state) = some .held

section
variable {s t : State} {sp sq : Spout} {n : Word16} {r : StepRec}

theorem findStep_held (s : State) (m n : Word16) :
    (planWith m (fun q => { q with state := .held }) s).find? (fun r => r.number == n)
      = (findStep s n).map fun r => if r.number = m then { r with state := .held } else r := by
  unfold planWith findStep
  rw [List.find?_map]
  congr 2
  funext r
  show ((if r.number = m then { r with state := StepState.held } else r).number == n) = (r.number == n)
  split <;> rfl

/-- A step that is HELD stays so when a step is HELD. -/
theorem StepHeld.heldPlan (h : StepHeld n s) (plan : t.plan = heldPlan sp s) : StepHeld n t := by
  unfold StepHeld findStep at h ⊢
  rw [plan, Machine.heldPlan]
  cases activeStep s sp with
  | none => exact h
  | some r =>
    dsimp only
    rw [findStep_held, Option.map_map]
    obtain ⟨q, found, state⟩ := Option.map_eq_some_iff.mp h
    rw [findStep, found]
    show some (if q.number = r.number then { q with state := StepState.held } else q).state = _
    split
    · rfl
    · rw [state]

/-- The spout's ACTIVE step becomes HELD. -/
theorem stepHeld_of_active (active : activeStep s sp = some r) (plan : t.plan = heldPlan sp s) : StepHeld r.number t := by
  have there : (findStep s r.number).isSome = true :=
    List.find?_isSome.mpr ⟨r, List.mem_of_find?_eq_some active, beq_self_eq_true _⟩
  obtain ⟨q, found⟩ := Option.isSome_iff_exists.mp there
  have number : q.number = r.number := beq_iff_eq.mp (List.find?_some (p := fun q : StepRec => q.number == r.number) found)
  unfold StepHeld
  rw [findStep, plan, heldPlan, active]
  dsimp only
  rw [findStep_held, found, Option.map_some, if_pos number]
  rfl

/-- When a step is HELD, another spout's ACTIVE step stays ACTIVE, or it has the same number. -/
theorem activeStep_heldPlan (active : activeStep s sq = some r) (plan : t.plan = heldPlan sp s) :
    activeStep t sq = some r ∨ StepHeld r.number t := by
  cases other : activeStep s sp with
  | none =>
    left
    rw [activeStep, plan, heldPlan, other]
    exact active
  | some q =>
    by_cases same : r.number = q.number
    · right
      rw [same]
      exact stepHeld_of_active other plan
    · left
      obtain ⟨good, before, after, split, none⟩ := List.find?_eq_some_iff_append.mp active
      rw [activeStep, plan, heldPlan, other]
      dsimp only
      rw [planWith, split, List.map_append, List.map_cons, if_neg same]
      refine List.find?_eq_some_iff_append.mpr ⟨good, _, _, rfl, fun x mem => ?_⟩
      obtain ⟨y, hy, rfl⟩ := List.mem_map.mp mem
      split
      · simp
      · exact none y hy

end

end Sys2Proof.Machine
end

section
/-! HALT in RUN (R44, R48, R107, R115, R130, R179). -/

namespace Sys2Proof.Machine

/-! ## One spout's part of HALT entry -/

section
variable {before s : State} {sp sq : Spout}

theorem haltSpout_orders (hs : s.settings = before.settings) :
    (haltSpout before sp s).orders = if fitted before sp then closedOrders sp s else s.orders := by
  rw [haltSpout_eq hs]
  split <;> rfl

theorem haltSpout_plan (hs : s.settings = before.settings) : (haltSpout before sp s).plan =
    if fitted before sp = true ∧ blockCause before sp = 0 then heldPlan sp s else s.plan := by
  rw [haltSpout_eq hs]
  by_cases fit : fitted before sp = true
  · rw [if_pos fit]
    by_cases cause : blockCause before sp = 0
    · rw [if_pos cause, if_pos (And.intro fit cause)]
      rfl
    · rw [if_neg cause, if_neg (not_and_of_not_right _ cause)]
      rfl
  · rw [if_neg fit, if_neg (not_and_of_not_left _ fit)]

theorem stepHeld_haltSpout (hs : s.settings = before.settings) {n : Word16} (h : StepHeld n s) :
    StepHeld n (haltSpout before sp s) := by
  have plan := haltSpout_plan (sp := sp) hs
  split at plan
  · exact h.heldPlan plan
  · unfold StepHeld findStep
    rw [plan]
    exact h

theorem activeStep_haltSpout (hs : s.settings = before.settings) {r : StepRec} (active : activeStep s sq = some r) :
    activeStep (haltSpout before sp s) sq = some r ∨ StepHeld r.number (haltSpout before sp s) := by
  have plan := haltSpout_plan (sp := sp) hs
  split at plan
  · exact activeStep_heldPlan active plan
  · left
    rw [activeStep, plan]
    exact active

/-- The ACTIVE step of a fitted spout whose pour block begins here. -/
theorem stepHeld_begins (hs : s.settings = before.settings) (fit : fitted before sp = true)
    (cause : blockCause before sp = 0) {r : StepRec} (active : activeStep s sp = some r) :
    StepHeld r.number (haltSpout before sp s) :=
  stepHeld_of_active active ((haltSpout_plan hs).trans (if_pos ⟨fit, cause⟩))

end

/-! ## What stands at HALT entry -/

section
variable (cause : HaltCause) (s : State)

/-- The part after spout A's, and after both spouts' parts of HALT entry. -/
def haltedA : State := haltSpout s .a (halting cause s)

def haltedBoth : State := haltSpout s .b (haltedA cause s)

theorem haltStopped_both : haltStopped cause s = refusedAll (haltedEntries s) .halted 0 (haltedBoth cause s) :=
  haltStopped_eq cause s

theorem haltedA_settings : (haltedA cause s).settings = s.settings := haltSpout_keeps keepsPlan_settings _ _ _

/-- A reading that PSEQ's and GATE's work keeps is as it was before HALT entry, but for the run state. -/
theorem haltedBoth_keeps {κ : Type} {k : State → κ} (hk : KeepsPlan k) :
    k (haltedBoth cause s) = k (s.withRunc { state := .halt, haltCause := some cause, allStop := some .pending }) := by
  unfold haltedBoth haltedA
  rw [haltSpout_keeps hk, haltSpout_keeps hk]
  exact hk.orders _ _

theorem haltStopped_orders : (haltStopped cause s).orders = (haltedBoth cause s).orders := by
  rw [haltStopped_both]
  rfl

theorem haltStopped_stepHeld {n : Word16} (h : StepHeld n (haltedBoth cause s)) : StepHeld n (haltStopped cause s) := by
  rw [haltStopped_both]
  exact h

/-- The ALL_STOP of HALT entry is behind the orders before it and ahead of the closes. -/
theorem haltStopped_stopWaits (h : ∀ o ∈ s.orders, o.station ≠ 63) : StopWaits s.orders (haltStopped cause s).orders := by
  have first : StopWaits s.orders (halting cause s).orders := by
    have none : ¬ (s.orders.any fun o => o.station == 63) = true := by simpa using h
    exact ⟨s.orders, [], if_neg none, rfl⟩
  have step : ∀ {t : State} {sp : Spout}, t.settings = s.settings → StopWaits s.orders t.orders →
      StopWaits s.orders (haltSpout s sp t).orders := fun hs waits => by
    rw [haltSpout_orders hs]
    split
    · exact waits.closedOrders
    · exact waits
  rw [haltStopped_orders]
  exact step (haltedA_settings cause s) (step rfl first)

theorem keepsPlan_gates_stations : KeepsPlan fun s => (s.gates, s.stations) := by constructor <;> intros <;> rfl

variable {cause s}

/-- A close waits for a fitted gate that is not CLOSED. -/
theorem haltStopped_close {sp : Spout} {st : Byte} (fit : fitted s sp = true)
    (gate : (s.gates.get sp).state ≠ .rest .closed) (station : stationOf s .feedGate sp = some st) :
    { station := st, kind := .gate sp 0, poster := .gate } ∈ (haltStopped cause s).orders := by
  have read : ((haltedA cause s).gates, (haltedA cause s).stations) = (s.gates, s.stations) :=
    haltSpout_keeps keepsPlan_gates_stations _ _ _
  have gates : (haltedA cause s).gates = s.gates := congrArg Prod.fst read
  have map : (haltedA cause s).stations = s.stations := congrArg Prod.snd read
  have stations : ∀ sq, stationOf (haltedA cause s) .feedGate sq = stationOf s .feedGate sq := fun sq => by
    unfold stationOf
    rw [map]
  rw [haltStopped_orders, haltedBoth, haltSpout_orders (haltedA_settings cause s)]
  cases sp with
  | a =>
    have posted : { station := st, kind := .gate .a 0, poster := .gate } ∈ (haltedA cause s).orders := by
      rw [haltedA, haltSpout_orders (before := s) (s := halting cause s) rfl, if_pos fit]
      exact mem_closedOrders gate station
    split
    · refine mem_closedOrders_other posted fun same => ?_
      rw [stations] at same
      cases stationOf_unit station same
    · exact posted
  | b =>
    rw [if_pos fit]
    exact mem_closedOrders (by rw [gates]; exact gate) ((stations .b).trans station)

/-- The ACTIVE step of a fitted spout whose pour block begins at HALT entry is HELD. -/
theorem haltStopped_held {sp : Spout} {r : StepRec} (fit : fitted s sp = true) (block : blockCause s sp = 0)
    (active : activeStep s sp = some r) : StepHeld r.number (haltStopped cause s) := by
  have settings := haltedA_settings cause s
  refine haltStopped_stepHeld cause s ?_
  cases sp with
  | a => exact stepHeld_haltSpout settings (stepHeld_begins (before := s) (s := halting cause s) rfl fit block active)
  | b =>
    rcases activeStep_haltSpout (before := s) (s := halting cause s) (sp := .a) rfl active with stays | held
    · exact stepHeld_begins settings fit block stays
    · exact stepHeld_haltSpout settings held

end

/-! ## The withdrawals after the refusals -/

/-- No QUEUED entry is left that HALT entry removes. -/
def Cleared (s : State) : Prop := ∀ e ∈ s.relayQueue, e.onLine = false → haltRemoves e = false

section
variable {s t : State}

theorem Cleared.of_sublist (h : Cleared s) (queue : t.relayQueue.Sublist s.relayQueue) : Cleared t :=
  fun e mem => h e (queue.subset mem)

theorem refusedAll_nil (c : Code) (x : Byte) (s : State) : refusedAll [] c x s = s := by
  simp [refusedAll, State.withRelayQueue, State.withSport]

theorem haltRemoves_of_move {sp : Spout} {e : RelayEntry} (h : isMoveOf sp e = true) : haltRemoves e = true := by
  unfold isMoveOf at h
  unfold haltRemoves
  split at h
  · rename_i m _ _ body
    rw [body]
  · cases h

theorem haltRemoves_of_gate {sp : Spout} {e : RelayEntry} (h : isGateAboveZero sp e = true) : haltRemoves e = true := by
  unfold isGateAboveZero at h
  unfold haltRemoves
  split at h
  · rename_i g _ _ body
    rw [body]
    exact (Bool.and_eq_true_iff.mp h).2
  · cases h

/-- An answer to entries that HALT entry removes finds none. -/
theorem Cleared.filter_nil (h : Cleared s) {p : RelayEntry → Bool} (hp : ∀ e, p e = true → haltRemoves e = true) :
    (s.relayQueue.filter fun e => !e.onLine && p e) = [] := by
  refine List.filter_eq_nil_iff.mpr fun e mem hit => ?_
  obtain ⟨waits, picked⟩ := Bool.and_eq_true_iff.mp hit
  have stays := h e mem (by simpa using waits)
  rw [hp e picked] at stays
  cases stays

theorem keepsPlan_sport : KeepsPlan State.sport := by constructor <;> intros <;> rfl

theorem Cleared.evaluateBlock_sport (h : Cleared s) (was : Bool) (sp : Spout) : (evaluateBlock was sp s).sport = s.sport := by
  cases was with
  | true => rw [(pourBlockBegins s sp).1]
  | false =>
    by_cases cause : blockCause s sp = 0
    · rw [evaluateBlock_clear cause]
    · rw [evaluateBlock_begins cause, pourEntries, h.filter_nil fun _ => haltRemoves_of_gate, refusedAll_nil, ite_self]
      rfl

/-- A record made known answers nothing. -/
theorem Cleared.recordKnown_sport (h : Cleared s) (sp : Spout) (q : SpoutRec) (z : ZoneTable) :
    (recordKnown sp q z s).sport = s.sport := by
  unfold recordKnown
  dsimp only
  rw [h.filter_nil fun _ => haltRemoves_of_move, refusedAll_nil]
  split
  · rfl
  · rw [activationTest_keeps keepsPlan_sport, leaveHold_keeps keepsPlan_sport,
      apply_ite State.sport, setNotice_keeps keepsPlan_sport, ite_self, apply_ite State.sport,
      setNotice_keeps keepsPlan_sport, ite_self, Cleared.evaluateBlock_sport]
    · split <;> rfl
    · refine h.of_sublist ?_
      split <;> exact .refl _

end

/-- A removed MOVE without the new claim, or any other entry, changes nothing. -/
theorem withdrawMove_idle {e : RelayEntry} (h : ∀ m cls, e.body ≠ .move m cls true) (t : State) : withdrawMove e t = t := by
  unfold withdrawMove
  split
  · rename_i m cls body
    exact absurd body (h m cls)
  · rfl

theorem withdrawMove_undo {e : RelayEntry} {m : MoveFields} {cls : MoveClass} (h : e.body = .move m cls true) (t : State) :
    withdrawMove e t = undoMove m.spout m.target t := by
  rw [withdrawMove, h]

/-- An acceptance undone is a record made known (R69). -/
theorem undoMove_undone {t : State} {sp : Spout} {b : Byte} (moving : (t.spouts.get sp).state = .moving)
    (target : (t.spouts.get sp).target.val = b.toNat) :
    ∃ q z, Undone t sp q z ∧ undoMove sp b t = recordKnown sp q z t := by
  obtain ⟨deep, u, known, change, test, zones⟩ := undoMove_known moving target
  exact ⟨_, u.zones, ⟨rfl, test, change.limit, zones⟩, known.trans change.known⟩

theorem Cleared.withdrawMove_sport {t : State} (h : Cleared t) (e : RelayEntry) : (withdrawMove e t).sport = t.sport := by
  by_cases takes : ∃ m cls, e.body = .move m cls true
  · obtain ⟨m, cls, body⟩ := takes
    rw [withdrawMove_undo body]
    by_cases goes : (t.spouts.get m.spout).state = .moving ∧ (t.spouts.get m.spout).target.val = m.target.toNat
    · obtain ⟨moving, target⟩ := goes
      obtain ⟨q, z, _, known⟩ := undoMove_undone moving target
      rw [known, h.recordKnown_sport]
    · rw [undoMove_idle goes]
  · rw [withdrawMove_idle fun m cls body => takes ⟨m, cls, body⟩]

/-- The withdrawals after the refusals of HALT entry answer nothing more. -/
theorem Cleared.withdrawals {t : State} (h : Cleared t) (es : List RelayEntry) :
    Cleared (es.foldl (fun u e => withdrawMove e u) t) ∧ (es.foldl (fun u e => withdrawMove e u) t).sport = t.sport := by
  induction es generalizing t with
  | nil => exact ⟨h, rfl⟩
  | cons e es ih =>
    obtain ⟨cleared, sport⟩ := ih (h.of_sublist (withdrawMove_queue e t))
    exact ⟨cleared, sport.trans (h.withdrawMove_sport e)⟩

/-! ## HALT entry complete -/

/-- The part without what HALT entry writes. -/
def outsideHalt (s : State) : State :=
  { withoutPlan s with
    sport := Sport.initial
    relayQueue := []
    spouts := State.reset.spouts
    zones := State.reset.zones
    runc := RunControl.initial }

theorem keepsTravel_outsideHalt : KeepsTravel outsideHalt :=
  ⟨⟨by constructor <;> intros <;> rfl, fun _ _ => rfl, fun _ _ => rfl⟩, fun _ _ => rfl, fun _ _ => rfl⟩

theorem keepsTravel_runc : KeepsTravel State.runc :=
  ⟨⟨by constructor <;> intros <;> rfl, fun _ _ => rfl, fun _ _ => rfl⟩, fun _ _ => rfl, fun _ _ => rfl⟩

section
variable (cause : HaltCause) (s : State)

theorem haltEntered_outsideHalt : outsideHalt (haltEntered cause s) = outsideHalt s := by
  rw [← haltEntry_entered]
  exact haltEntry_keeps s keepsTravel_outsideHalt (fun _ _ => rfl) cause

/-- A reading of what HALT entry does not write. -/
theorem haltEntered_reads {κ : Type} (k : State → κ) (hk : ∀ x, k (outsideHalt x) = k x) : k (haltEntered cause s) = k s := by
  rw [← hk (haltEntered cause s), haltEntered_outsideHalt, hk s]

theorem haltEntered_runc :
    (haltEntered cause s).runc = { state := .halt, haltCause := some cause, allStop := some .pending } := by
  rw [haltEntered, setNotice_keeps keepsTravel_runc.toKeepsPlan, keeps_foldl _ fun t e => withdrawMove_keeps keepsTravel_runc t e,
    haltStopped_both]
  exact haltedBoth_keeps cause s keepsTravel_runc.toKeepsPlan

theorem haltEntered_notice : noticeAt 0 (haltEntered cause s) = (true, subjectByte cause.byte) :=
  (setNotice_at .halted 0 _ _).trans (if_pos rfl)

theorem haltedBoth_queue : (haltedBoth cause s).relayQueue = s.relayQueue := haltedBoth_keeps cause s keepsPlan_relayQueue

theorem haltStopped_cleared : Cleared (haltStopped cause s) := by
  intro e mem queued
  rw [haltStopped_both] at mem
  obtain ⟨there, stays⟩ := mem_refusedAll .halted 0 mem
  rw [haltedBoth_queue] at there
  exact Bool.eq_false_iff.mpr fun removed => stays (List.mem_filter.mpr ⟨there, by simp [queued, removed]⟩)

theorem haltEntered_cleared : Cleared (haltEntered cause s) :=
  ((haltStopped_cleared cause s).withdrawals (haltedEntries s)).1

/-- The answers HALTED are all that HALT entry makes ready. -/
theorem haltEntered_ready : (haltEntered cause s).sport.ready = s.sport.ready
    ++ (haltedEntries s).map fun e => refusalAnswer e.tag .halted 0 e.body.kindByte := by
  have left : (haltEntered cause s).sport = (haltStopped cause s).sport :=
    ((haltStopped_cleared cause s).withdrawals (haltedEntries s)).2
  have sport : (haltedBoth cause s).sport = s.sport := haltedBoth_keeps cause s keepsPlan_sport
  rw [left, haltStopped_both]
  exact congrArg (fun x : Sport => x.ready ++ _) sport

end

/-- Settles O18: HALT entry's steps, and what they leave. -/
theorem haltFromRun : Obligations.HaltFromRun := by
  unfold Obligations.HaltFromRun
  intro tag s taken run
  dsimp only
  have entered : haltRequest (heard s) = Reply.ok [] (haltEntered .request (heard s)) := by
    rw [haltRequest, show (heard s).runc.state = .run from run, haltEntry_entered]
  have outside {κ : Type} (k : State → κ) (hk : ∀ x, k (outsideHalt x) = k x) :
      k (haltEntered .request (heard s)) = k (heard s) := haltEntered_reads _ _ k hk
  have notice := haltEntered_notice .request (heard s)
  refine ⟨?exec, haltStopped_stopWaits .request (heard s), fun sp st fit gate station => ?closes,
    fun sp fit block r active => haltStopped_held fit block active, fun e t => ⟨?kept, ?undone⟩,
    haltEntered_runc .request (heard s), congrArg Prod.fst notice, congrArg Prod.snd notice,
    haltEntered_cleared .request (heard s), ?ready,
    outside State.timers fun _ => rfl, outside State.cycle fun _ => rfl, outside State.baselines fun _ => rfl,
    outside State.settings fun _ => rfl, outside State.stations fun _ => rfl, outside State.heads fun _ => rfl,
    outside State.holdDust fun _ => rfl, outside State.gates fun _ => rfl, outside State.console fun _ => rfl,
    outside State.freeboard fun _ => rfl, outside State.clock fun _ => rfl, outside State.unbilled fun _ => rfl,
    outside State.pins fun _ => rfl, outside State.line fun _ => rfl⟩
  case exec =>
    show Host.Outcome.next (receive (repliedActs tag haltRequest) s) = _
    rw [receive_taken taken, repliedActs, replied_ok entered]
  case closes =>
    exact ⟨_, haltStopped_close fit gate station, rfl, rfl⟩
  case kept =>
    exact fun h => withdrawMove_idle h t
  case undone =>
    intro m cls body
    rw [withdrawMove_undo body]
    exact ⟨undoMove_idle, undoMove_undone⟩
  case ready =>
    exact congrArg (· ++ [replyAnswer tag .done []]) (haltEntered_ready .request (heard s))

end Sys2Proof.Machine
end

section
/-! The console level and the maintenance key, LOAD_ZONE and SET_FREEBOARD (R52, R54, R58, R60, R62, R78). -/

namespace Sys2Proof.Machine

/-! ## SET_CONSOLE_LEVEL and the maintenance key (R58) -/

section
variable {level : Byte} {s : State}

theorem setConsoleLevel_large (h : 3 < level.toNat) : setConsoleLevel level s = Reply.refuse .badValue s := by
  rw [setConsoleLevel, levelOfByte_none h]

theorem setConsoleLevel_locked (zero : level = 0) (key : s.pins.keyActive = false) :
    setConsoleLevel level s = Reply.refuse .keyRequired s := by
  subst zero
  exact if_pos ⟨rfl, key⟩

theorem setConsoleLevel_written {x : Level} (value : x.val = level.toNat) (key : level ≠ 0 ∨ s.pins.keyActive = true) :
    setConsoleLevel level s = Reply.ok [] (s.withConsole x) := by
  obtain ⟨l, read, hl⟩ := levelOfByte_some (b := level) (by omega)
  obtain rfl : l = x := Fin.ext (hl.trans value.symm)
  rw [setConsoleLevel, read]
  refine if_neg ?_
  rintro ⟨rfl, inactive⟩
  rcases key with other | active
  · exact other (BitVec.eq_of_toNat_eq value.symm)
  · rw [inactive] at active
    cases active

end

/-- Settles O15: the three outcomes of the request, and the two key commands. -/
theorem consoleLevelAndKey : Obligations.ConsoleLevelAndKey := by
  unfold Obligations.ConsoleLevelAndKey
  refine ⟨fun tag level s taken => ?_, fun s => rfl, fun s => rfl⟩
  have run : exec (.setConsoleLevel tag level) s = .next (receive (replied tag (setConsoleLevel level)) s) := rfl
  exact ⟨fun large => exec_replied_refused taken run (setConsoleLevel_large large),
    fun zero key => exec_replied_refused taken run (setConsoleLevel_locked zero key),
    fun x value key => exec_replied_ok taken run (setConsoleLevel_written value key)⟩

/-! ## LOAD_ZONE (R52, R54) -/

theorem zoneTypeOfByte_some {b : Byte} (h : b.toNat ≤ 3) : ∃ t, zoneTypeOfByte b = some t ∧ t.byte = b := by
  revert b; decide

theorem zoneTypeOfByte_none {b : Byte} (h : ¬ b.toNat ≤ 3) : zoneTypeOfByte b = none := by
  revert b; decide

theorem ZoneType.byte_hold {t : ZoneType} : t.byte = 0 ↔ t = .hold := by cases t <;> decide

theorem ZoneType.byte_route {t : ZoneType} : t.byte = 3 ↔ t = .route := by cases t <;> decide

theorem holdOfByte_some {b : Byte} (h : 1 ≤ b.toNat ∧ b.toNat ≤ 9) : ∃ x, holdOfByte b = some x ∧ x.val + 1 = b.toNat :=
  ⟨_, dif_pos h, Nat.sub_add_cancel h.1⟩

theorem holdOfByte_none {b : Byte} (h : ¬ (1 ≤ b.toNat ∧ b.toNat ≤ 9)) : holdOfByte b = none := dif_neg h

/-- A hold number that was read is shown as the byte it was read from. -/
theorem holdCode_of_val {b : Byte} {x : Hold} (h : x.val + 1 = b.toNat) : holdCode (some x) = b := by
  rw [holdCode, holdByte, h, byteOfNat_toNat]

/-- The ranges of R52 on the limits of the four axes. -/
def BoxInRange (b : Box) : Prop :=
  b.railMin.toNat ≤ b.railMax.toNat ∧ b.railMax.toNat ≤ 400000 ∧
    -1800 ≤ b.slewMin.toInt ∧ b.slewMin.toInt ≤ b.slewMax.toInt ∧ b.slewMax.toInt ≤ 1800 ∧
    b.reachMin.toNat ≤ b.reachMax.toNat ∧ b.reachMax.toNat ≤ 30000 ∧
    b.lowerMin.toNat ≤ b.lowerMax.toNat ∧ b.lowerMax.toNat ≤ 25000

theorem boxGood_iff (b : Box) : boxGood b = true ↔ BoxInRange b := by
  simp only [boxGood, BoxInRange, Bool.and_eq_true, decide_eq_true_eq, and_assoc]

theorem zoneNumber_iff (b : Byte) : zoneNumber b = true ↔ 1 ≤ b.toNat ∧ b.toNat ≤ 63 := by
  simp [zoneNumber]

/-- The fields an entry of this type uses are in range (R54). -/
def UsedInRange (z : ZoneFields) (t : ZoneType) : Prop :=
  (t = .hold → 1 ≤ z.hold.toNat ∧ z.hold.toNat ≤ 9) ∧ (t ≠ .route → BoxInRange z.box) ∧
    (t = .route → (1 ≤ z.fromZone.toNat ∧ z.fromZone.toNat ≤ 63) ∧ (1 ≤ z.toZone.toNat ∧ z.toZone.toNat ≤ 63))

/-- The entry a LOAD_ZONE stores: the fields its type does not use are 0 (R54). -/
def storedZone (z : ZoneFields) (t : ZoneType) (level : Level) (owner : Option Spout) : Zone :=
  { present := z.present
    zoneType := t
    level
    hold := if t = .hold then holdOfByte z.hold else none
    box := if t = .route then Box.zero else z.box
    fromZone := if t = .route then z.fromZone else 0
    toZone := if t = .route then z.toZone else 0
    owner }

section
variable {z : ZoneFields} {t : ZoneType} {level : Level}

theorem zoneEntry_stored (type : zoneTypeOfByte z.zoneType = some t) (read : levelOfByte z.level = some level)
    (used : UsedInRange z t) : zoneEntry z = some (storedZone z t level) := by
  obtain ⟨hold, box, ends⟩ := used
  rw [zoneEntry, type, read]
  cases t with
  | hold =>
    obtain ⟨x, readHold, _⟩ := holdOfByte_some (hold rfl)
    have stored : storedZone z .hold level = fun owner =>
        { present := z.present, zoneType := .hold, level, hold := some x, box := z.box, fromZone := 0, toZone := 0, owner } := by
      rw [← readHold]
      rfl
    rw [readHold, stored]
    exact if_pos ((boxGood_iff _).mpr (box nofun))
  | route =>
    obtain ⟨fromZone, toZone⟩ := ends rfl
    exact if_pos (Bool.and_eq_true_iff.mpr ⟨(zoneNumber_iff _).mpr fromZone, (zoneNumber_iff _).mpr toZone⟩)
  | transit => exact if_pos ((boxGood_iff _).mpr (box nofun))
  | park => exact if_pos ((boxGood_iff _).mpr (box nofun))

theorem zoneEntry_unfit (type : zoneTypeOfByte z.zoneType = some t) (read : levelOfByte z.level = some level)
    (unfit : ¬ UsedInRange z t) : zoneEntry z = none := by
  rw [zoneEntry, type, read]
  cases t with
  | hold =>
    by_cases hold : 1 ≤ z.hold.toNat ∧ z.hold.toNat ≤ 9
    · obtain ⟨x, readHold, _⟩ := holdOfByte_some hold
      rw [readHold]
      exact if_neg fun box => unfit ⟨fun _ => hold, fun _ => (boxGood_iff _).mp box, nofun⟩
    · rw [holdOfByte_none hold]
  | route =>
    refine if_neg fun ends => unfit ⟨nofun, fun other => absurd rfl other, fun _ => ?_⟩
    obtain ⟨fromZone, toZone⟩ := Bool.and_eq_true_iff.mp ends
    exact ⟨(zoneNumber_iff _).mp fromZone, (zoneNumber_iff _).mp toZone⟩
  | transit => exact if_neg fun box => unfit ⟨nofun, fun _ => (boxGood_iff _).mp box, nofun⟩
  | park => exact if_neg fun box => unfit ⟨nofun, fun _ => (boxGood_iff _).mp box, nofun⟩

end

/-- Every field of a LOAD_ZONE but the index is in range. -/
def FieldsInRange (z : ZoneFields) : Prop :=
  z.zoneType.toNat ≤ 3 ∧ z.level.toNat ≤ 3 ∧ (z.zoneType = 0 → 1 ≤ z.hold.toNat ∧ z.hold.toNat ≤ 9) ∧
    (z.zoneType ≠ 3 → BoxInRange z.box) ∧
    (z.zoneType = 3 → (1 ≤ z.fromZone.toNat ∧ z.fromZone.toNat ≤ 63) ∧ (1 ≤ z.toZone.toNat ∧ z.toZone.toNat ≤ 63))

/-- The type's code may be tested for the type. -/
theorem fieldsInRange_iff {z : ZoneFields} {t : ZoneType} (code : t.byte = z.zoneType) :
    FieldsInRange z ↔ z.zoneType.toNat ≤ 3 ∧ z.level.toNat ≤ 3 ∧ UsedInRange z t := by
  rw [FieldsInRange, UsedInRange, ← code, ne_eq, ne_eq, ZoneType.byte_hold, ZoneType.byte_route]

theorem zoneEntry_none {z : ZoneFields} (h : ¬ FieldsInRange z) : zoneEntry z = none := by
  by_cases type : z.zoneType.toNat ≤ 3
  · obtain ⟨t, readType, code⟩ := zoneTypeOfByte_some type
    by_cases low : z.level.toNat ≤ 3
    · obtain ⟨level, read, _⟩ := levelOfByte_some low
      exact zoneEntry_unfit readType read fun used => h ((fieldsInRange_iff code).mpr ⟨type, low, used⟩)
    · rw [zoneEntry, readType, levelOfByte_none (by omega)]
      cases t <;> rfl
  · rw [zoneEntry, zoneTypeOfByte_none type]

theorem writeZone_none {z : ZoneFields} (h : ¬ ((1 ≤ z.index.toNat ∧ z.index.toNat ≤ 63) ∧ FieldsInRange z)) :
    writeZone z = none := by
  unfold writeZone
  by_cases fields : FieldsInRange z
  · have outside : ¬ (1 ≤ z.index.toNat ∧ z.index.toNat ≤ 63) := fun index => h ⟨index, fields⟩
    by_cases null : z.index.toNat = 0
    · rw [zoneIx_of_val (i := 0) null.symm]
      cases zoneEntry z <;> rfl
    · rw [zoneIx_of_large (by omega)]
  · rw [zoneEntry_none fields]
    cases zoneIx? z.index <;> rfl

theorem writeZone_some {z : ZoneFields} (index : 1 ≤ z.index.toNat ∧ z.index.toNat ≤ 63) (fields : FieldsInRange z) :
    ∃ (i : ZoneIx) (t : ZoneType) (level : Level), i.val = z.index.toNat ∧ t.byte = z.zoneType ∧
      level.val = z.level.toNat ∧ UsedInRange z t ∧ writeZone z = some fun s => s.withZones
        { s.zones with entries := s.zones.entries.set i.val (storedZone z t level (s.zone i).owner) } := by
  have ⟨type, low, _⟩ := fields
  obtain ⟨t, readType, code⟩ := zoneTypeOfByte_some type
  obtain ⟨level, read, hl⟩ := levelOfByte_some low
  obtain ⟨_, _, used⟩ := (fieldsInRange_iff code).mp fields
  have hi : (⟨z.index.toNat, by omega⟩ : ZoneIx).val = z.index.toNat := rfl
  refine ⟨_, t, level, hi, code, hl, used, ?_⟩
  rw [writeZone, zoneIx_of_val hi, zoneEntry_stored readType read used]
  refine if_neg fun null => ?_
  have zero : z.index.toNat = 0 := congrArg Fin.val null
  omega

/-- The hold stored is the hold given, for a HOLD zone, and otherwise none. -/
theorem storedZone_hold {z : ZoneFields} {t : ZoneType} (used : UsedInRange z t) (level : Level) (owner : Option Spout) :
    holdCode (storedZone z t level owner).hold = if t = .hold then z.hold else 0 := by
  by_cases hold : t = .hold
  · obtain ⟨x, read, hx⟩ := holdOfByte_some (used.1 hold)
    rw [storedZone, if_pos hold, if_pos hold, read, holdCode_of_val hx]
  · rw [storedZone, if_neg hold, if_neg hold]
    rfl

/-- Settles O21: the fields are read or not, and the entry is written at its index. -/
theorem loadZone_writesItsEntry : Obligations.LoadZone := by
  unfold Obligations.LoadZone
  refine ⟨fun tag z s taken state => exec_notConfig taken state rfl, fun tag z s taken config => ?_⟩
  have run : exec (.loadZone tag z) s = .next (receive (replied tag (loadZone z)) s) := rfl
  refine ⟨fun bad => exec_badValue taken config run (writeZone_none bad), fun ⟨index, fields⟩ => ?_⟩
  obtain ⟨i, t, level, hi, code, hl, used, write⟩ := writeZone_some index fields
  refine ⟨s.zones.entries.set i.val (storedZone z t level (s.zone i).owner), exec_written taken config run write rfl,
    fun j => ?_⟩
  simp only [set_getElem_fin, ← code, ZoneType.byte_hold, ZoneType.byte_route]
  refine ⟨fun other => if_neg ?_, fun here => ?_⟩
  · rintro rfl
    exact other hi
  · obtain rfl : j = i := Fin.ext (here.trans hi.symm)
    rw [if_pos rfl]
    exact ⟨rfl, rfl, hl, rfl, storedZone_hold used level _, rfl, rfl, rfl⟩

/-! ## A notice stays set through the blocks' work (R185) -/

theorem setNotice_flag (n : Notice) (v : Word16) (s : State) : (setNotice n v s).notices.flags[n.ix] = true :=
  congrArg Prod.fst ((setNotice_at n n.ix v s).trans (if_pos rfl))

theorem updateOpenBill_notices (f : Bill → Bill) (s : State) : (updateOpenBill f s).notices = s.notices := by
  unfold updateOpenBill
  split
  · split <;> rfl
  · rfl

theorem BlockWork.flag_stays {s t : State} (work : BlockWork s t) {n : Fin 13} (h : s.notices.flags[n] = true) :
    t.notices.flags[n] = true := by
  induction work with
  | refl s => exact h
  | trans _ _ ih jh => exact jh (ih h)
  | inner change => rw [change.notices]; exact h
  | preempt s p c x => rw [preempt_refusedAll]; exact h
  | due s p => unfold pollDue; split <;> exact h
  | countDone s => rw [countDoneStep_notices]; exact h
  | addHold s x d => rw [updateOpenBill_notices]; exact h
  | addUnplaced s d => rw [updateOpenBill_notices]; exact h
  | notice s m v =>
    show (s.notices.flags.set m.ix.val true)[n] = true
    rw [set_getElem_fin]
    split
    · rfl
    · exact h
  | _ => exact h

/-! ## An overreach is made known (R62, R78) -/

theorem tellSpout_clearance {before s : State} {sp : Spout} (was : (before.spouts.get sp).overreach = false)
    (deep : (s.spouts.get sp).overreach = true) : (tellSpout before sp s).notices.flags[Notice.clearance.ix] = true := by
  have changed : ¬ spoutView before sp = spoutView s sp := by
    rw [spoutView_eq_iff, was, deep]
    rintro ⟨_, _, same, _⟩
    cases same
  rw [tellSpout, if_neg changed, was, deep]
  exact (leaveHold_work _ sp).flag_stays (setNotice_flag _ _ _)

theorem tcuKnown_clearance {before s : State} {sp : Spout} (was : (before.spouts.get sp).overreach = false)
    (deep : (s.spouts.get sp).overreach = true) : (tcuKnown before s).notices.flags[Notice.clearance.ix] = true := by
  have told : (tellSpout before .b (tellSpout before .a s)).notices.flags[Notice.clearance.ix] = true := by
    cases sp with
    | a => exact (tellSpout_work _ before .b).flag_stays (tellSpout_clearance was deep)
    | b => exact tellSpout_clearance was (by rw [tellSpout_keeps keepsBlock_spouts]; exact deep)
  unfold tcuKnown
  dsimp only
  split
  · exact told
  · exact (activationTest_work _).flag_stays told

/-! ## SET_FREEBOARD (R60, R78) -/

/-- The overreach test on a spout SETTLED over the hold. -/
def retested (h : Hold) (sp : Spout) (s : State) : State := if settledOver s sp h then testOverreach sp s else s

/-- The offset written and both spouts tested. -/
def freeboardTested (h : Hold) (offset : Word16) (s : State) : State :=
  retested h .b (retested h .a (s.withFreeboard (s.freeboard.set h.val offset)))

theorem writeFreeboard_eq (h : Hold) (offset : Word16) (s : State) :
    writeFreeboard h offset s = tcuKnown s (freeboardTested h offset s) := rfl

/-- A spout's overreach flag after the request's test, read from the state before it. -/
def deepAfter (h : Hold) (sp : Spout) (s : State) : Bool :=
  if settledOver s sp h then overreachTest s sp else (s.spouts.get sp).overreach

theorem retested_self (h : Hold) (sp : Spout) (s : State) :
    (retested h sp s).spouts.get sp = { s.spouts.get sp with overreach := deepAfter h sp s } := by
  unfold retested deepAfter
  split
  · exact Pair.get_set_self _ _ _
  · rfl

theorem retested_keeps {κ : Type} {k : State → κ} (hk : ∀ s x, k (s.withSpouts x) = k s) (h : Hold) (sp : Spout)
    (s : State) : k (retested h sp s) = k s := by
  unfold retested
  split
  · exact hk _ _
  · rfl

theorem retested_other {sp sq : Spout} (other : sq ≠ sp) (h : Hold) (s : State) :
    (retested h sp s).spouts.get sq = s.spouts.get sq := by
  unfold retested
  split
  · exact Pair.get_set_other _ _ _ _ other
  · rfl

/-- The test of one spout reads nothing that the other's has written. -/
theorem deepAfter_retested {sp sq : Spout} (other : sq ≠ sp) (h : Hold) (s : State) :
    deepAfter h sq (retested h sp s) = deepAfter h sq s := by
  have zones : (retested h sp s).zone = s.zone :=
    retested_keeps (k := State.zone) (fun _ _ => rfl) h sp s
  have limit : effLowerMax (retested h sp s) = effLowerMax s :=
    retested_keeps (k := effLowerMax) (fun _ _ => rfl) h sp s
  unfold deepAfter settledOver currentHold overreachTest
  dsimp only
  rw [retested_other other, zones, limit]

theorem freeboardTested_record (h : Hold) (offset : Word16) (sp : Spout) (s : State) :
    (freeboardTested h offset s).spouts.get sp = { s.spouts.get sp with
      overreach := deepAfter h sp (s.withFreeboard (s.freeboard.set h.val offset)) } := by
  unfold freeboardTested
  cases sp with
  | a =>
    rw [retested_other (by decide), retested_self]
    rfl
  | b =>
    rw [retested_self, retested_other (by decide), deepAfter_retested (by decide)]
    rfl

/-- The test of a spout SETTLED over a hold, by the hold's offset. -/
theorem overreachTest_settledOver {s : State} {sp : Spout} {h : Hold} (there : settledOver s sp h = true) :
    overreachTest s sp = true ↔ (s.spouts.get sp).posValid = true ∧
      max ((s.zone (s.spouts.get sp).current).box.lowerMax.toNat - (s.freeboard[h]).toNat)
        (s.zone (s.spouts.get sp).current).box.lowerMin.toNat < (s.spouts.get sp).position.lower.toNat := by
  rw [settledOver, Bool.and_eq_true, beq_iff_eq, beq_iff_eq, currentHold, Zone.holdOf] at there
  obtain ⟨settled, covers⟩ := there
  obtain ⟨type, hold⟩ := Option.ite_none_right_eq_some.mp covers
  rw [(RecordChange.refl sp s).overreachTest_iff, Deep, depthLimit, hold]
  exact ⟨fun ⟨_, _, deep⟩ => deep, fun deep => ⟨settled, type, deep⟩⟩

/-- What the travel unit does not write is as the written offset leaves it. -/
theorem writeFreeboard_reads {κ : Type} {k : State → κ} (hk : KeepsTravel k) (h : Hold) (offset : Word16) (s : State) :
    k (writeFreeboard h offset s) = k (s.withFreeboard (s.freeboard.set h.val offset)) := by
  rw [writeFreeboard_eq, tcuKnown_keeps hk.toKeepsBlock, freeboardTested, retested_keeps hk.spouts, retested_keeps hk.spouts]

theorem writeFreeboard_zones (h : Hold) (offset : Word16) (s : State) : (writeFreeboard h offset s).zones = s.zones := by
  rw [writeFreeboard_eq, tcuKnown_keeps keepsBlock_zones, freeboardTested, retested_keeps (k := State.zones) (fun _ _ => rfl),
    retested_keeps (k := State.zones) (fun _ _ => rfl)]
  rfl

/-- Each spout's record is kept but for its overreach flag, and a new overreach is noticed. -/
theorem writeFreeboard_spout (h : Hold) (offset : Word16) (s : State) (sp : Spout) : ∃ deep : Bool,
    (writeFreeboard h offset s).spouts.get sp = { s.spouts.get sp with overreach := deep } ∧
      (settledOver s sp h = false → deep = (s.spouts.get sp).overreach) ∧
      (settledOver s sp h = true → (deep = true ↔ (s.spouts.get sp).posValid = true ∧
        max ((s.zone (s.spouts.get sp).current).box.lowerMax.toNat - offset.toNat)
          (s.zone (s.spouts.get sp).current).box.lowerMin.toNat < (s.spouts.get sp).position.lower.toNat) ∧
        (deep = true → (s.spouts.get sp).overreach = false →
          (writeFreeboard h offset s).notices.flags[Notice.clearance.ix] = true)) := by
  have record := freeboardTested_record h offset sp s
  refine ⟨deepAfter h sp (s.withFreeboard (s.freeboard.set h.val offset)), ?_, fun away => ?_, fun there => ⟨?_, ?_⟩⟩
  · rw [writeFreeboard_eq, tcuKnown_keeps keepsBlock_spouts, record]
  · exact if_neg (Bool.eq_false_iff.mp away)
  · have written : (s.withFreeboard (s.freeboard.set h.val offset)).freeboard[h] = offset :=
      (set_getElem_fin _ _ _ _).trans (if_pos rfl)
    have stays : settledOver (s.withFreeboard (s.freeboard.set h.val offset)) sp h = true := there
    rw [deepAfter, if_pos stays, overreachTest_settledOver stays, written]
    rfl
  · intro deep was
    exact tcuKnown_clearance was ((congrArg SpoutRec.overreach record).trans deep)

theorem setFreeboard_bad {hold : Byte} {offset : Word16} {s : State}
    (bad : ¬ ((1 ≤ hold.toNat ∧ hold.toNat ≤ 9) ∧ offset.toNat ≤ 5000)) :
    setFreeboard hold offset s = Reply.refuse .badValue s := by
  unfold setFreeboard
  by_cases number : 1 ≤ hold.toNat ∧ hold.toNat ≤ 9
  · obtain ⟨x, read, _⟩ := holdOfByte_some number
    rw [read]
    exact if_neg fun range => bad ⟨number, range⟩
  · rw [holdOfByte_none number]

theorem setFreeboard_good {hold : Byte} {offset : Word16} {s : State} {h : Hold} (number : h.val + 1 = hold.toNat)
    (range : offset.toNat ≤ 5000) : setFreeboard hold offset s = Reply.ok [] (writeFreeboard h offset s) := by
  obtain ⟨x, read, hx⟩ := holdOfByte_some (b := hold) (by omega)
  obtain rfl : x = h := Fin.ext (by omega)
  rw [setFreeboard, read]
  exact if_pos range

/-- Settles O26: the range check, and then the written offset with both spouts tested and their changes made known. -/
theorem setFreeboard_testsOverreach : Obligations.SetFreeboard := by
  unfold Obligations.SetFreeboard
  intro tag hold offset s taken
  have run : exec (.setFreeboard tag hold offset) s = .next (receive (repliedActs tag (setFreeboard hold offset)) s) := rfl
  refine ⟨fun bad => exec_acts_unchanged taken run (setFreeboard_bad bad), fun h number range => ?_⟩
  have outside {κ : Type} (k : State → κ) (hk : ∀ x, k (outsideHalt x) = k x) :
      k (writeFreeboard h offset (heard s)) = k ((heard s).withFreeboard (s.freeboard.set h.val offset)) := by
    rw [← hk (writeFreeboard _ _ _), writeFreeboard_reads keepsTravel_outsideHalt, hk]
    rfl
  refine ⟨pushReady (replyAnswer tag .done []) (writeFreeboard h offset (heard s)), ?exec, outside State.freeboard fun _ => rfl,
    List.getLast?_concat, writeFreeboard_spout h offset (heard s), writeFreeboard_zones h offset (heard s),
    writeFreeboard_reads keepsTravel_runc h offset (heard s), outside State.heads fun _ => rfl,
    outside State.holdDust fun _ => rfl, outside State.console fun _ => rfl, outside State.settings fun _ => rfl,
    outside State.stations fun _ => rfl, outside State.gates fun _ => rfl, outside State.clock fun _ => rfl,
    outside State.unbilled fun _ => rfl, outside State.line fun _ => rfl⟩
  case exec =>
    rw [run, receive_taken taken, repliedActs, replied_ok (setFreeboard_good number range)]

end Sys2Proof.Machine
end

section
/-! The head table and the status by request: LOAD_HEAD, READ_HEAD, GET_STATUS (R82, R83, R190, R193 to R196). -/

namespace Sys2Proof.Machine

/-! ## The head table's index and a head's fields (R81, R82) -/

theorem headIx_of_val {b : Byte} {i : HeadIx} (h : i.val = b.toNat) : headIx? b = some i := by
  rw [headIx?, dif_pos (show b.toNat < 16 by omega)]
  exact congrArg some (Fin.ext h.symm)

theorem headIx_of_large {b : Byte} (h : 15 < b.toNat) : headIx? b = none := dif_neg (by omega)

/-- The fields of a present head that LOAD_HEAD takes. -/
def HeadInRange (h : HeadFields) : Prop :=
  (1 ≤ h.station.toNat ∧ h.station.toNat ≤ 60) ∧ h.hold.toNat ≤ 9 ∧ h.watch.toNat ≤ h.alarm.toNat ∧
    h.alarm.toNat ≤ h.trip.toNat ∧ h.trip.toNat ≤ 4000 ∧ h.hysteresis.toNat ≤ 500 ∧
    (1 ≤ h.persistence.toNat ∧ h.persistence.toNat ≤ 8)

theorem headGood_iff (h : HeadFields) : headGood h = true ↔ HeadInRange h := by
  simp only [headGood, HeadInRange, fieldAddress, Bool.and_eq_true, decide_eq_true_eq]
  tauto

/-- A hold field of 0 is a quay head's; any other is its hold's number. -/
theorem holdCode_holdOfByte {b : Byte} (h : b.toNat ≤ 9) : holdCode (holdOfByte b) = b := by
  by_cases quay : b.toNat = 0
  · rw [holdOfByte_none (by omega)]
    exact (BitVec.eq_of_toNat_eq quay).symm
  · obtain ⟨x, read, hx⟩ := holdOfByte_some (b := b) (by omega)
    rw [read, holdCode_of_val hx]

/-- The entry that LOAD_HEAD writes for a present head. -/
def loadedHead (h : HeadFields) : Head :=
  { Head.initial with
    present := true, station := h.station, hold := holdOfByte h.hold, watch := h.watch, alarm := h.alarm,
    trip := h.trip, hysteresis := h.hysteresis, persistence := h.persistence }

theorem headEntry_absent {h : HeadFields} (absent : h.present = false) : headEntry h = some Head.initial := by
  rw [headEntry, if_neg (Bool.eq_false_iff.mp absent)]

theorem headEntry_loaded {h : HeadFields} (present : h.present = true) (fields : HeadInRange h) :
    headEntry h = some (loadedHead h) := by
  rw [headEntry, if_pos present, if_pos ((headGood_iff h).mpr fields)]
  rfl

theorem headEntry_none {h : HeadFields} (present : h.present = true) (bad : ¬ HeadInRange h) : headEntry h = none := by
  rw [headEntry, if_pos present, if_neg (mt (headGood_iff h).mp bad)]

theorem headEntry_some {h : HeadFields} (fields : h.present = true → HeadInRange h) :
    headEntry h = some (if h.present then loadedHead h else Head.initial) := by
  cases present : h.present with
  | false => exact headEntry_absent present
  | true => exact headEntry_loaded present (fields present)

theorem writeHead_some {h : HeadFields} {i : HeadIx} (index : i.val = h.index.toNat)
    (fields : h.present = true → HeadInRange h) :
    writeHead h = some (setHead i (if h.present then loadedHead h else Head.initial)) := by
  rw [writeHead, headIx_of_val index, headEntry_some fields]

theorem writeHead_none {h : HeadFields} (bad : ¬ (h.index.toNat ≤ 15 ∧ (h.present = true → HeadInRange h))) :
    writeHead h = none := by
  unfold writeHead
  by_cases index : h.index.toNat ≤ 15
  · obtain ⟨present, unfit⟩ := Classical.not_imp.mp fun fields => bad ⟨index, fields⟩
    rw [headEntry_none present unfit]
    cases headIx? h.index <;> rfl
  · rw [headIx_of_large (Nat.not_le.mp index)]

/-- Settles O22: the fields are read or not, and the entry is written at its index. -/
theorem loadHead_writesItsEntry : Obligations.LoadHead := by
  unfold Obligations.LoadHead
  refine ⟨fun tag h s taken state => exec_notConfig taken state rfl, fun tag h s taken config => ?_⟩
  have run : exec (.loadHead tag h) s = .next (receive (replied tag (loadHead h)) s) := rfl
  refine ⟨fun bad => exec_badValue taken config run (writeHead_none bad), fun ⟨range, fields⟩ => ?_⟩
  obtain ⟨i, index⟩ : ∃ i : HeadIx, i.val = h.index.toNat := ⟨⟨h.index.toNat, by omega⟩, rfl⟩
  refine ⟨s.heads.set i.val (if h.present then loadedHead h else Head.initial),
    exec_written taken config run (writeHead_some index fields) rfl, fun j => ?_⟩
  rw [set_getElem_fin]
  refine ⟨fun other => if_neg ?_, fun here absent => ?_, fun here present => ?_⟩
  · rintro rfl
    exact other index
  · rw [if_pos (Fin.ext (here.trans index.symm)), if_neg (Bool.eq_false_iff.mp absent)]
  · obtain ⟨_, hold, _⟩ := fields present
    rw [if_pos (Fin.ext (here.trans index.symm)), if_pos present]
    exact ⟨holdOfByte h.hold, holdCode_holdOfByte hold, rfl⟩

/-! ## READ_HEAD and GET_STATUS (R83, R190, R193, R194, R196) -/

/-- A notice set built flag by flag: bit k stands for the notice at index k - 1. -/
theorem noticeSet_foldl (v : Vector Bool 13) (l : List (Fin 13)) (w : Word16) (k : Nat) :
    (l.foldl (fun w i => if v[i] then w ||| (1#16 <<< (i.val + 1)) else w) w).getLsbD k = true ↔
      w.getLsbD k = true ∨ ∃ i ∈ l, v[i] = true ∧ k = i.val + 1 := by
  induction l generalizing w with
  | nil => simp
  | cons i l ih =>
    have bit : (1#16 <<< (i.val + 1)).getLsbD k = true ↔ k = i.val + 1 := by
      rw [BitVec.getLsbD_shiftLeft, BitVec.getLsbD_one]
      simp only [Bool.and_eq_true, Bool.not_eq_true', decide_eq_true_eq, decide_eq_false_iff_not]
      omega
    rw [List.foldl_cons, ih]
    simp only [List.mem_cons, exists_eq_or_imp]
    split
    · rename_i set
      simp only [BitVec.getLsbD_or, Bool.or_eq_true, bit, set, true_and, or_assoc]
    · rename_i clear
      simp only [clear, false_and, false_or, Bool.false_eq_true]

theorem noticeSet_bit (v : Vector Bool 13) (k : Nat) :
    (noticeSet v).getLsbD k = true ↔ ∃ i : Fin 13, v[i] = true ∧ k = i.val + 1 := by
  rw [noticeSet, noticeSet_foldl]
  simp

theorem noticeSet_notice (v : Vector Bool 13) (i : Fin 13) : (noticeSet v).getLsbD (i.val + 1) = v[i] := by
  rw [Bool.eq_iff_iff, noticeSet_bit]
  refine ⟨fun ⟨j, set, same⟩ => ?_, fun set => ⟨i, set, rfl⟩⟩
  obtain rfl : i = j := Fin.ext (by omega)
  exact set

/-- Bits 0, 14 and 15 stand for no notice. -/
theorem noticeSet_outside (v : Vector Bool 13) {k : Nat} (h : k = 0 ∨ 14 ≤ k) : (noticeSet v).getLsbD k = false := by
  rw [← Bool.not_eq_true, noticeSet_bit]
  rintro ⟨i, _, same⟩
  omega

/-- Settles O25: the head's entry read at its index, and the status as it stands. -/
theorem readHeadAndStatus : Obligations.ReadHeadAndStatus := by
  unfold Obligations.ReadHeadAndStatus
  refine ⟨fun tag index s taken => ?_, fun tag s taken => ⟨noticeSet s.notices.flags, noticeSet s.notices.mask, ?_,
    fun n => ⟨noticeSet_notice _ n, noticeSet_notice _ n⟩, noticeSet_outside _ (.inl rfl), noticeSet_outside _ (.inl rfl),
    fun k high => ⟨noticeSet_outside _ (.inr high), noticeSet_outside _ (.inr high)⟩⟩⟩
  · have run : exec (.readHead tag index) s = .next (receive (replied tag (readHead index)) s) := rfl
    refine ⟨fun large => exec_replied_refused taken run ?_, fun i hi => exec_replied_ok taken run ?_⟩
    · rw [readHead, headIx_of_large large]
    · rw [readHead, headIx_of_val hi]
      dsimp only
      rw [headData, hi, byteOfNat_toNat]
      rfl
  · have run : exec (.getStatus tag) s = .next (receive (replied tag getStatus) s) := rfl
    exact exec_replied_ok taken run rfl

end Sys2Proof.Machine
end

section
/-! SAMPLE_NOW and ACK_TRIP (R85 to R87, R89, R96, R99). -/

namespace Sys2Proof.Machine

/-! ## SAMPLE_NOW (R85, R89) -/

section
variable {s : State}

theorem sampleNow_config (config : s.runc.state = .config) : sampleNow s = Reply.refuse .notRunning s := if_pos config

theorem sampleNow_cycling (runs : s.runc.state ≠ .config) (cycling : s.cycle.state = .cycling) :
    sampleNow s = Reply.refuse .busy s := by
  rw [sampleNow, if_neg runs, cycling]

theorem sampleNow_idle (runs : s.runc.state ≠ .config) (idle : s.cycle.state = .idle) :
    sampleNow s = Reply.ok [] (startCycle s) := by
  rw [sampleNow, if_neg runs, idle]

end

/-- The head a new cycle asks for has its poll waiting, unless a poll of its station is on the line. -/
theorem firstDustPoll_asked {s : State} {i : HeadIx} (first : firstPresent s = some i) :
    pollOnLine s (s.heads[i]).station = true ∨
      ∃ p ∈ (firstDustPoll s).foldl (polled s) s.polls, p.station = (s.heads[i]).station := by
  obtain ⟨_, _, asked⟩ := polled_foldl s (firstDustPoll s) s.polls
  refine asked { station := (s.heads[i]).station, kind := .dust i } ?_
  rw [firstDustPoll_eq, first]
  exact List.mem_singleton.mpr rfl

/-- Settles O27: the run state and the cycle state decide, and a cycle's start is `startCycle_eq`. -/
theorem sampleNow_startsCycle : Obligations.SampleNow := by
  unfold Obligations.SampleNow
  intro tag s taken
  have run : exec (.sampleNow tag) s = .next (receive (repliedActs tag sampleNow) s) := rfl
  refine ⟨fun config => exec_acts_unchanged taken run (sampleNow_config config),
    fun runs cycling => exec_acts_unchanged taken run (sampleNow_cycling runs cycling), fun runs idle => ?_⟩
  refine ⟨pushReady (replyAnswer tag .done []) (startCycle (heard s)), ?exec, ?started⟩
  case exec => rw [run, receive_taken taken, repliedActs, replied_ok (sampleNow_idle (s := heard s) runs idle)]
  case started =>
    have first : firstPresent (heard s) = firstPresent s := rfl
    rw [startCycle_eq, first]
    refine ⟨rfl, rfl, rfl, unsampled_getElem s.heads, fun none => ?_, fun i present least => ?_,
      rfl, rfl, rfl, rfl, rfl, rfl, rfl, rfl, rfl, rfl⟩
    · rw [firstPresent_none none]
      exact ⟨rfl, rfl⟩
    · have pending := firstPresent_least present least
      rw [pending]
      exact ⟨rfl, rfl, firstDustPoll_asked (s := heard s) pending⟩

/-! ## ACK_TRIP (R96) -/

/-- The part without what the change of a head writes. -/
def outsideDust (s : State) : State :=
  { withoutPlan s with
    sport := Sport.initial
    relayQueue := []
    heads := State.reset.heads
    holdDust := State.reset.holdDust }

theorem keepsBlock_outsideDust : KeepsBlock outsideDust :=
  ⟨by constructor <;> intros <;> rfl, fun _ _ => rfl, fun _ _ => rfl⟩

/-- A reading of what the change of a head does not write. -/
theorem changeHead_leaves {κ : Type} (k : State → κ) (hk : ∀ x, k (outsideDust x) = k x) (i : HeadIx) (h : Head) (s : State) :
    k (changeHead i h s) = k s := by
  have same : outsideDust (changeHead i h s) = outsideDust s := changeHead_reads keepsBlock_outsideDust (fun _ _ => rfl) i h s
  rw [← hk (changeHead i h s), same, hk s]

theorem tripClears_iff (h : Head) :
    tripClears h = true ↔ h.sampleValid = true ∧ h.sample.toNat + h.hysteresis.toNat < h.trip.toNat := by
  rw [tripClears, belowFallPoint, Bool.and_eq_true, decide_eq_true_eq]

section
variable {s : State} {index : Byte} {i : HeadIx}

theorem ackTrip_large (large : 15 < index.toNat) : ackTrip index s = Reply.refuse .badValue s := by
  rw [ackTrip, headIx_of_large large]

theorem ackTrip_absent (hi : i.val = index.toNat) (absent : (s.heads[i]).present = false) :
    ackTrip index s = Reply.refuse .badValue s := by
  rw [ackTrip, headIx_of_val hi]
  exact if_pos absent

section
variable (hi : i.val = index.toNat) (present : (s.heads[i]).present = true)
include hi present

theorem ackTrip_calm (calm : (s.heads[i]).state ≠ .live .trip) :
    ackTrip index s = Reply.ok [(s.heads[i]).state.byte] s := by
  rw [ackTrip, headIx_of_val hi]
  dsimp only
  rw [if_neg (ne_false_of_eq_true present), if_pos calm]

variable (tripped : (s.heads[i]).state = .live .trip)
include tripped

theorem ackTrip_persists (persists : ¬ tripClears s.heads[i] = true) :
    ackTrip index s = Reply.refuse .tripPersists s := by
  rw [ackTrip, headIx_of_val hi]
  dsimp only
  rw [if_neg (ne_false_of_eq_true present), if_neg (not_not.mpr tripped), if_neg persists]

theorem ackTrip_clears (clears : tripClears s.heads[i] = true) :
    ackTrip index s = Reply.ok [Dust.byte .alarm] (changeHead i (acknowledged s.heads[i]) s) := by
  rw [ackTrip, headIx_of_val hi]
  dsimp only
  rw [if_neg (ne_false_of_eq_true present), if_neg (not_not.mpr tripped), if_pos clears]

end

end

/-- Settles O28: each answer is a branch of the request, and the acknowledged head is one change of a head. -/
theorem ackTrip_clearsTrip : Obligations.AckTrip := by
  unfold Obligations.AckTrip
  intro tag index s taken
  have run : exec (.ackTrip tag index) s = .next (receive (repliedActs tag (ackTrip index)) s) := rfl
  refine ⟨fun large => exec_acts_unchanged taken run (ackTrip_large large), fun i hi => ⟨fun absent => ?_,
    fun present calm => ?_, fun present tripped persists => ?_, fun present tripped valid below => ?_⟩⟩
  · exact exec_acts_unchanged taken run (ackTrip_absent hi absent)
  · exact exec_acts_unchanged taken run (ackTrip_calm (s := heard s) hi present calm)
  · exact exec_acts_unchanged taken run
      (ackTrip_persists (s := heard s) hi present tripped (mt (tripClears_iff _).mp persists))
  · have clears := ackTrip_clears (s := heard s) hi present tripped ((tripClears_iff _).mpr ⟨valid, below⟩)
    have leaves {κ : Type} (k : State → κ) (hk : ∀ x, k (outsideDust x) = k x) :
        k (changeHead i (acknowledged s.heads[i]) (heard s)) = k (heard s) := changeHead_leaves k hk _ _ _
    refine ⟨pushReady (replyAnswer tag .done [2]) (changeHead i (acknowledged s.heads[i]) (heard s)), ?exec, rfl,
      changeHead_heads _ _ _, List.getLast?_concat, leaves State.cycle fun _ => rfl, leaves State.runc fun _ => rfl,
      leaves State.spouts fun _ => rfl, leaves State.zones fun _ => rfl, leaves State.settings fun _ => rfl,
      leaves State.stations fun _ => rfl, leaves State.gates fun _ => rfl, leaves State.console fun _ => rfl,
      leaves State.freeboard fun _ => rfl, leaves State.clock fun _ => rfl, leaves State.unbilled fun _ => rfl,
      leaves State.line fun _ => rfl⟩
    case exec =>
      rw [run, receive_taken taken, repliedActs, replied_ok clears]
      rfl

end Sys2Proof.Machine
end

section
/-! A valid sample and a miss on one head, by the head's state (R91 to R98). -/

namespace Sys2Proof.Machine

/-! ## A sample's level (R91) -/

/-- The threshold at which a state begins; QUIET begins at none. -/
def Head.threshold (h : Head) : Dust → Word16
  | .quiet => 0
  | .watch => h.watch
  | .alarm => h.alarm
  | .trip => h.trip

/-- The state below a state, to which a fall leads (R94). -/
def Dust.down : Dust → Dust
  | .alarm => .watch
  | _ => .quiet

/-- A sample's level is the highest state whose threshold it reaches. -/
theorem sampleLevel_reaches {h : Head} (good : h.Good) (c : Word16) (d : Dust) :
    d.rank ≤ (sampleLevel h c).rank ↔ (h.threshold d).toNat ≤ c.toNat := by
  obtain ⟨watch, alarm, _⟩ := good.ordered
  cases d with
  | quiet => exact iff_of_true (Nat.zero_le _) (Nat.zero_le _)
  | _ =>
    unfold sampleLevel Head.threshold
    split_ifs <;> simp only [Dust.rank] <;> omega

/-- A sample that rises the head is below no fall point (R94). -/
theorem notBelow_of_above {h : Head} (good : h.Good) {c : Word16} {d : Dust} (above : d.rank < (sampleLevel h c).rank) :
    ¬ belowFallPoint (h.threshold d) h.hysteresis c = true := by
  have reached := (sampleLevel_reaches good c d).mp above.le
  rw [belowFallPoint, decide_eq_true_eq]
  omega

/-! ## Rise counting and fall counting (R93, R94) -/

/-- The level of a rise that this sample continues: the lowest of its run. -/
def Head.riseTo (h : Head) (c : Word16) : Dust :=
  if h.riseCount = 0 then sampleLevel h c else Dust.min h.riseLevel (sampleLevel h c)

section
variable {h : Head} {c : Word16} {d : Dust}

theorem riseCount_level (notAbove : ¬ d.rank < (sampleLevel h c).rank) : riseCount d c h = { h with riseCount := 0 } :=
  if_neg notAbove

theorem riseCount_rises (above : d.rank < (sampleLevel h c).rank) (full : h.riseCount + 1 = h.persistence.toNat) :
    riseCount d c h =
      { h with state := .live (h.riseTo c), riseCount := 0, riseLevel := h.riseTo c, fallCount := 0 } :=
  (if_pos above).trans (if_pos full)

theorem riseCount_counts (above : d.rank < (sampleLevel h c).rank) (short : h.riseCount + 1 ≠ h.persistence.toNat) :
    riseCount d c h = { h with riseCount := h.riseCount + 1, riseLevel := h.riseTo c } :=
  (if_pos above).trans (if_neg short)

/-- A rise in progress aims above the head's state, so its level does too. -/
theorem riseTo_above (good : h.Good) (state : h.state = .live d) (above : d.rank < (sampleLevel h c).rank) :
    d.rank < (h.riseTo c).rank := by
  unfold Head.riseTo
  split
  · exact above
  · rename_i counting
    obtain ⟨x, live, rank⟩ := good.riseLevel counting
    cases state.symm.trans live
    exact Dust.min_rank _ _ rank above

variable {threshold : Word16} {down : Dust}

theorem fallCount_above (above : ¬ belowFallPoint threshold h.hysteresis c = true) :
    fallCount threshold down c h = { h with fallCount := 0 } := if_neg above

theorem fallCount_falls (below : belowFallPoint threshold h.hysteresis c = true)
    (full : h.fallCount + 1 = h.persistence.toNat) :
    fallCount threshold down c h = { h with state := .live down, riseCount := 0, fallCount := 0 } :=
  (if_pos below).trans (if_pos full)

theorem fallCount_counts (below : belowFallPoint threshold h.hysteresis c = true)
    (short : h.fallCount + 1 ≠ h.persistence.toNat) :
    fallCount threshold down c h = { h with fallCount := h.fallCount + 1 } :=
  (if_pos below).trans (if_neg short)

end

/-! ## What the judgement leaves alone -/

section
variable {κ : Type} {k : Head → κ}
  (hk : ∀ h x rise level fall, k { h with state := x, riseCount := rise, riseLevel := level, fallCount := fall } = k h)
include hk

theorem riseCount_keeps (d : Dust) (c : Word16) (h : Head) : k (riseCount d c h) = k h := by
  unfold riseCount
  dsimp only
  split
  · split
    · exact hk h _ _ _ _
    · exact hk h h.state _ _ h.fallCount
  · exact hk h h.state _ h.riseLevel h.fallCount

theorem fallCount_keeps (threshold : Word16) (down : Dust) (c : Word16) (h : Head) : k (fallCount threshold down c h) = k h := by
  unfold fallCount
  split
  · split
    · exact hk h _ _ h.riseLevel _
    · exact hk h h.state h.riseCount h.riseLevel _
  · exact hk h h.state h.riseCount h.riseLevel _

end

/-! ## The judgement by the head's state (R92, R95, R98) -/

section
variable {h : Head} {c : Word16} {d : Dust}

theorem judgeSample_quiet (state : h.state = .live .quiet) : judgeSample c h = riseCount .quiet c h := by
  rw [judgeSample, state]

theorem judgeSample_trip (state : h.state = .live .trip) : judgeSample c h = h := by
  rw [judgeSample, state]

theorem judgeSample_silent (state : h.state = .silent) :
    judgeSample c h = riseCount .quiet c { h with state := .live .quiet, riseCount := 0, fallCount := 0 } := by
  rw [judgeSample, state]

/-- In WATCH and ALARM fall counting follows where rise counting left the state. -/
theorem judgeSample_falling (falls : d = .watch ∨ d = .alarm) (state : h.state = .live d) : judgeSample c h =
    if (riseCount d c h).state = .live d then fallCount (h.threshold d) d.down c (riseCount d c h)
    else riseCount d c h := by
  have watch := riseCount_keeps (k := Head.watch) (fun _ _ _ _ _ => rfl) d c h
  have alarm := riseCount_keeps (k := Head.alarm) (fun _ _ _ _ _ => rfl) d c h
  rcases falls with rfl | rfl
  · rw [judgeSample, state]
    dsimp only
    rw [watch]
    rfl
  · rw [judgeSample, state]
    dsimp only
    rw [alarm]
    rfl

theorem judgeSample_keeps {κ : Type} {k : Head → κ}
    (hk : ∀ h x rise level fall, k { h with state := x, riseCount := rise, riseLevel := level, fallCount := fall } = k h)
    (c : Word16) (h : Head) : k (judgeSample c h) = k h := by
  have falling {d : Dust} (falls : d = .watch ∨ d = .alarm) (state : h.state = .live d) : k (judgeSample c h) = k h := by
    rw [judgeSample_falling falls state]
    split
    · rw [fallCount_keeps hk, riseCount_keeps hk]
    · exact riseCount_keeps hk _ _ _
  cases state : h.state with
  | silent =>
    rw [judgeSample_silent state, riseCount_keeps hk]
    exact hk h _ _ h.riseLevel _
  | live d =>
    cases d with
    | quiet => rw [judgeSample_quiet state, riseCount_keeps hk]
    | watch => exact falling (.inl rfl) state
    | alarm => exact falling (.inr rfl) state
    | trip => rw [judgeSample_trip state]

theorem falling_of_ne (calm : d ≠ .trip) (risen : d ≠ .quiet) : d = .watch ∨ d = .alarm := by
  cases d with
  | watch => exact .inl rfl
  | alarm => exact .inr rfl
  | quiet => exact absurd rfl risen
  | trip => exact absurd rfl calm

section
variable (good : h.Good) (calm : d ≠ .trip) (state : h.state = .live d) (above : d.rank < (sampleLevel h c).rank)
include good calm state above

/-- A sample that completes the persistence raises the head. -/
theorem judgeSample_rises (full : h.riseCount + 1 = h.persistence.toNat) : judgeSample c h =
    { h with state := .live (h.riseTo c), riseCount := 0, riseLevel := h.riseTo c, fallCount := 0 } := by
  by_cases quiet : d = .quiet
  · subst quiet
    rw [judgeSample_quiet state, riseCount_rises above full]
  · have higher : HeadState.live (h.riseTo c) ≠ .live d := fun same => by
      have rank := riseTo_above good state above
      rw [HeadState.live.inj same] at rank
      exact lt_irrefl _ rank
    rw [judgeSample_falling (falling_of_ne calm quiet) state, riseCount_rises above full]
    exact if_neg higher

/-- A sample short of the persistence counts, and clears the fall count of a head that could fall. -/
theorem judgeSample_counts (short : h.riseCount + 1 ≠ h.persistence.toNat) : judgeSample c h =
    { h with riseCount := h.riseCount + 1, riseLevel := h.riseTo c,
             fallCount := if d = .quiet then h.fallCount else 0 } := by
  by_cases quiet : d = .quiet
  · subst quiet
    rw [judgeSample_quiet state, riseCount_counts above short, if_pos rfl]
  · rw [judgeSample_falling (falling_of_ne calm quiet) state, riseCount_counts above short, if_neg quiet]
    exact (if_pos state).trans (fallCount_above (notBelow_of_above good above))

end

section
variable (falls : d = .watch ∨ d = .alarm) (state : h.state = .live d) (notAbove : ¬ d.rank < (sampleLevel h c).rank)
include falls state notAbove

/-- A sample that does not rise the head clears the rise count, and fall counting follows. -/
theorem judgeSample_level : judgeSample c h = fallCount (h.threshold d) d.down c { h with riseCount := 0 } := by
  rw [judgeSample_falling falls state, riseCount_level notAbove]
  exact if_pos state

end

end

/-! ## A valid sample (R92) -/

/-- The head with the sample kept and its misses cleared, as the judgement finds it. -/
def Head.took (c : Word16) (h : Head) : Head := { h with sample := c, sampleValid := true, missCount := 0 }

theorem validSample_took (c : Word16) (h : Head) : validSample c h = judgeSample c (h.took c) := rfl

theorem Head.Good.took {h : Head} (good : h.Good) (c : Word16) : (h.took c).Good :=
  good.judged good.riseCount good.fallCount (Nat.zero_le 2) good.riseLevel

theorem belowFallPoint_iff (threshold hysteresis c : Word16) :
    belowFallPoint threshold hysteresis c = true ↔ c.toNat + hysteresis.toNat < threshold.toNat := decide_eq_true_iff

theorem validSample_kept (c : Word16) (h : Head) :
    (validSample c h).sample = c ∧ (validSample c h).sampleValid = true ∧ (validSample c h).missCount = 0 :=
  ⟨judgeSample_keeps (k := Head.sample) (fun _ _ _ _ _ => rfl) c (h.took c),
    judgeSample_keeps (k := Head.sampleValid) (fun _ _ _ _ _ => rfl) c (h.took c),
    judgeSample_keeps (k := Head.missCount) (fun _ _ _ _ _ => rfl) c (h.took c)⟩

theorem riseCount_live {h : Head} {d : Dust} (state : h.state = .live d) (c : Word16) :
    ∃ x, (riseCount d c h).state = .live x := by
  unfold riseCount
  dsimp only
  split
  · split
    · exact ⟨_, rfl⟩
    · exact ⟨d, state⟩
  · exact ⟨d, state⟩

/-- A SILENT head is judged as a head in QUIET with its counts 0. -/
theorem validSample_silent {h : Head} (silent : h.state = .silent) (c : Word16) :
    validSample c h = validSample c { h with state := .live .quiet, riseCount := 0, fallCount := 0 } ∧
      ∃ d, (validSample c h).state = .live d := by
  have judged := judgeSample_silent (h := h.took c) (c := c) silent
  rw [validSample_took, judged]
  exact ⟨rfl, riseCount_live rfl c⟩

section
variable {h : Head} {d : Dust}

section
variable (good : h.Good) (calm : d ≠ .trip) (state : h.state = .live d) {c : Word16} (above : d.rank < (sampleLevel h c).rank)
include good calm state above

theorem validSample_rises (full : h.riseCount + 1 = h.persistence.toNat) : validSample c h =
    { h.took c with state := .live (h.riseTo c), riseCount := 0, riseLevel := h.riseTo c, fallCount := 0 } :=
  judgeSample_rises (h := h.took c) (good.took c) calm state above full

theorem validSample_counts (short : h.riseCount + 1 ≠ h.persistence.toNat) : validSample c h =
    { h.took c with riseCount := h.riseCount + 1, riseLevel := h.riseTo c,
                    fallCount := if d = .quiet then h.fallCount else 0 } :=
  judgeSample_counts (h := h.took c) (good.took c) calm state above short

end

section
variable {c : Word16} (notAbove : ¬ d.rank < (sampleLevel h c).rank)
include notAbove

theorem validSample_quiet (state : h.state = .live d) (quiet : d = .quiet) :
    validSample c h = { h.took c with riseCount := 0 } := by
  subst quiet
  exact (judgeSample_quiet (h := h.took c) state).trans (riseCount_level notAbove)

variable (falls : d = .watch ∨ d = .alarm) (state : h.state = .live d)
include falls state

theorem validSample_level :
    validSample c h = fallCount (h.threshold d) d.down c { h.took c with riseCount := 0 } := by
  have judged := judgeSample_level (h := h.took c) falls state notAbove
  have same : (h.took c).threshold d = h.threshold d := by cases d <;> rfl
  rw [same] at judged
  exact judged

/-- A sample below the fall point takes the head one level down where it completes the persistence, else it counts. -/
theorem validSample_below (below : c.toNat + h.hysteresis.toNat < (h.threshold d).toNat) :
    (h.fallCount + 1 = h.persistence.toNat →
      (validSample c h).state = .live d.down ∧ (validSample c h).fallCount = 0) ∧
    (h.fallCount + 1 ≠ h.persistence.toNat →
      (validSample c h).state = .live d ∧ (validSample c h).fallCount = h.fallCount + 1) := by
  have below := (belowFallPoint_iff _ _ _).mpr below
  rw [validSample_level notAbove falls state]
  refine ⟨fun full => ?_, fun short => ?_⟩
  · rw [fallCount_falls (h := { h.took c with riseCount := 0 }) below full]
    exact ⟨rfl, rfl⟩
  · rw [fallCount_counts (h := { h.took c with riseCount := 0 }) below short]
    exact ⟨state, rfl⟩

theorem validSample_notBelow (notBelow : ¬ c.toNat + h.hysteresis.toNat < (h.threshold d).toNat) :
    (validSample c h).state = .live d ∧ (validSample c h).fallCount = 0 := by
  rw [validSample_level notAbove falls state,
    fallCount_above (h := { h.took c with riseCount := 0 }) (mt (belowFallPoint_iff _ _ _).mp notBelow)]
  exact ⟨state, rfl⟩

theorem validSample_level_riseCount : (validSample c h).riseCount = 0 := by
  rw [validSample_level notAbove falls state]
  unfold fallCount
  split
  · split <;> rfl
  · rfl

end

end

/-! ## A miss (R97) -/

/-- The head with one miss more. -/
def Head.missed (h : Head) : Head := { h with sampleValid := false, missCount := min 2 (h.missCount + 1) }

theorem missSample_eq (h : Head) : missSample h =
    if h.missCount = 1 ∧ h.state ≠ .live .trip then { h.missed with state := .silent, riseCount := 0, fallCount := 0 }
    else h.missed := by
  have count : (if 2 ≤ h.missCount then 2 else h.missCount + 1) = min 2 (h.missCount + 1) := by split <;> omega
  unfold missSample secondMiss Head.missed
  simp only [count, beq_iff_eq]

theorem missSample_counted (h : Head) : (missSample h).sampleValid = false ∧ (missSample h).sample = h.sample ∧
    (missSample h).missCount = min 2 (h.missCount + 1) ∧ (missSample h).riseLevel = h.riseLevel := by
  rw [missSample_eq]
  split <;> exact ⟨rfl, rfl, rfl, rfl⟩

theorem missSample_stays {h : Head} (stays : h.missCount ≠ 1 ∨ h.state = .live .trip) : missSample h = h.missed := by
  rw [missSample_eq, if_neg]
  rintro ⟨second, calm⟩
  exact stays.elim (absurd second) calm

theorem missSample_silent {h : Head} (silent : h.state = .silent) : (missSample h).state = .silent := by
  rw [missSample_eq]
  split
  · rfl
  · exact silent

/-- Settles O29: each clause is one branch of the judgement or of the miss. -/
theorem headJudgement : Obligations.HeadJudgement := by
  unfold Obligations.HeadJudgement
  intro h c good
  refine ⟨⟨sampleLevel_reaches good c .watch, sampleLevel_reaches good c .alarm, sampleLevel_reaches good c .trip⟩,
    validSample_kept c h, fun trip => ⟨judgeSample_trip (h := h.took c) trip, ?_⟩, fun silent => ?_,
    fun d calm state above => ⟨fun full => ?_, fun short => ?_⟩, fun d calm state notAbove => ?_,
    missSample_counted h, fun second calm => ?_, fun stays => ?_⟩
  case refine_1 =>
    rw [missSample_stays (.inr trip)]
    exact trip
  case refine_2 =>
    obtain ⟨judged, live⟩ := validSample_silent silent c
    exact ⟨judged, live, missSample_silent silent⟩
  case refine_3 =>
    rw [validSample_rises good calm state above full]
    exact ⟨rfl, rfl, rfl⟩
  case refine_4 =>
    rw [validSample_counts good calm state above short]
    exact ⟨state, rfl, rfl, fun risen => if_neg risen⟩
  case refine_5 =>
    refine ⟨?_, fun quiet => ?_, fun watch below => ?_, fun alarm below => ?_, fun watch notBelow => ?_,
      fun alarm notBelow => ?_⟩
    · by_cases quiet : d = .quiet
      · rw [validSample_quiet notAbove state quiet]
      · exact validSample_level_riseCount notAbove (falling_of_ne calm quiet) state
    · rw [validSample_quiet notAbove state quiet]
      exact ⟨quiet ▸ state, rfl⟩
    · subst watch
      exact validSample_below notAbove (.inl rfl) state below
    · subst alarm
      exact validSample_below notAbove (.inr rfl) state below
    · subst watch
      exact validSample_notBelow notAbove (.inl rfl) state notBelow
    · subst alarm
      exact validSample_notBelow notAbove (.inr rfl) state notBelow
  case refine_6 =>
    rw [missSample_eq, if_pos ⟨second, calm⟩]
    exact ⟨rfl, rfl, rfl⟩
  case refine_7 =>
    rw [missSample_stays stays]
    exact ⟨rfl, rfl, rfl⟩

end Sys2Proof.Machine
end

section
/-! Hold dust states: the highest head, and what a change of them starts (R99 to R101, R107, R116). -/

namespace Sys2Proof.Machine

/-! ## The highest state among the heads that count (R99) -/

theorem Dust.max_rank (x y : Dust) : (Dust.max x y).rank = Nat.max x.rank y.rank := by
  unfold Dust.max
  split
  · rename_i le
    exact (Nat.max_eq_right le).symm
  · rename_i gt
    exact (Nat.max_eq_left (Nat.le_of_not_le gt)).symm

theorem Dust.max_eq (x y : Dust) : Dust.max x y = x ∨ Dust.max x y = y := by
  unfold Dust.max
  split
  · exact .inr rfl
  · exact .inl rfl

/-- The highest of a state and some heads' is at or above each of them, and is one of them. -/
theorem highestDust (l : List Head) (d : Dust) :
    let highest := l.foldl (fun d x => Dust.max d x.state.counts) d
    d.rank ≤ highest.rank ∧ (∀ x ∈ l, x.state.counts.rank ≤ highest.rank) ∧
      (highest = d ∨ ∃ x ∈ l, x.state.counts = highest) := by
  induction l generalizing d with
  | nil => exact ⟨le_rfl, nofun, .inl rfl⟩
  | cons a l ih =>
    obtain ⟨start, each, among⟩ := ih (Dust.max d a.state.counts)
    rw [Dust.max_rank] at start
    refine ⟨(Nat.le_max_left _ _).trans start, List.forall_mem_cons.mpr ⟨(Nat.le_max_right _ _).trans start, each⟩, ?_⟩
    rcases among with same | ⟨x, mem, hx⟩
    · rcases Dust.max_eq d a.state.counts with first | here
      · exact .inl (same.trans first)
      · exact .inr ⟨a, List.mem_cons_self, (same.trans here).symm⟩
    · exact .inr ⟨x, List.mem_cons_of_mem _ mem, hx⟩

theorem mem_countingHeads {s : State} {h : Hold} {x : Head} :
    x ∈ s.heads.toList.filter (fun x => x.countsFor h) ↔ x.countsFor h = true ∧ ∃ i : HeadIx, s.heads[i] = x := by
  rw [List.mem_filter, Vector.mem_toList_iff, Vector.mem_iff_getElem, and_comm]
  refine and_congr_right fun _ => ⟨fun ⟨i, hi, same⟩ => ⟨⟨i, hi⟩, same⟩, fun ⟨i, same⟩ => ⟨i.val, i.isLt, same⟩⟩

theorem derivedDust_ge {s : State} {h : Hold} {i : HeadIx} (counts : (s.heads[i]).countsFor h = true) :
    (s.heads[i]).state.counts.rank ≤ (derivedDust s h).rank := by
  obtain ⟨_, each, _⟩ := highestDust (s.heads.toList.filter fun x => x.countsFor h) .quiet
  exact each _ (mem_countingHeads.mpr ⟨counts, i, rfl⟩)

theorem derivedDust_among (s : State) (h : Hold) : derivedDust s h = .quiet ∨
    ∃ i : HeadIx, (s.heads[i]).countsFor h = true ∧ (s.heads[i]).state.counts = derivedDust s h := by
  obtain ⟨_, _, among⟩ := highestDust (s.heads.toList.filter fun x => x.countsFor h) .quiet
  refine among.imp_right fun ⟨x, mem, hx⟩ => ?_
  obtain ⟨counts, i, rfl⟩ := mem_countingHeads.mp mem
  exact ⟨i, counts, hx⟩

theorem recomputeHolds_getElem (x : Head) (s : State) (h : Hold) : (recomputeHolds x s).holdDust[h] =
    if x.hold = none ∨ x.hold = some h then derivedDust s h else s.holdDust[h] := by
  show (Vector.ofFn _)[h.val] = _
  rw [Vector.getElem_ofFn]
  simp only [Bool.or_eq_true, beq_iff_eq]

/-! ## The notices of risen holds (R100) -/

/-- A hold rose, and to this state. -/
def Rose (before s : State) (h : Hold) (d : Dust) : Prop :=
  (before.holdDust[h]).rank < (s.holdDust[h]).rank ∧ s.holdDust[h] = d

/-- The notice that tells of a rise to a state. -/
def TellsOf (n : Fin 13) (d : Dust) : Prop := n = 1 ∧ d = .trip ∨ n = 6 ∧ d = .alarm

theorem holdNumber_subject (h : Hold) : subjectByte (holdByte h) = BitVec.ofNat 16 (h.val + 1) := by
  revert h
  decide

/-- What one hold's rise does: one of its two notices, or nothing. -/
theorem holdNotice_cases (before : State) (h : Hold) (t : State) :
    (Rose before t h .trip ∧ holdNotice before h t = setNotice .dustTrip (subjectByte (holdByte h)) t) ∨
    (Rose before t h .alarm ∧ holdNotice before h t = setNotice .dustAlarm (subjectByte (holdByte h)) t) ∨
    (¬ Rose before t h .trip ∧ ¬ Rose before t h .alarm ∧ holdNotice before h t = t) := by
  unfold Rose holdNotice
  by_cases rank : (before.holdDust[h]).rank < (t.holdDust[h]).rank
  · rw [if_pos rank]
    cases state : t.holdDust[h] with
    | trip => exact .inl ⟨⟨state ▸ rank, rfl⟩, rfl⟩
    | alarm => exact .inr (.inl ⟨⟨state ▸ rank, rfl⟩, rfl⟩)
    | quiet => exact .inr (.inr ⟨nofun, nofun, rfl⟩)
    | watch => exact .inr (.inr ⟨nofun, nofun, rfl⟩)
  · exact .inr (.inr ⟨fun ⟨rose, _⟩ => rank rose, fun ⟨rose, _⟩ => rank rose, if_neg rank⟩)

/-- Telling of a hold's rise writes nothing but notices. -/
theorem holdNotice_notices (before : State) (h : Hold) (t : State) :
    holdNotice before h t = t.withNotices (holdNotice before h t).notices := by
  rcases holdNotice_cases before h t with ⟨_, told⟩ | ⟨_, told⟩ | ⟨_, _, told⟩ <;> rw [told] <;> rfl

theorem holdNotice_mask (before : State) (h : Hold) (t : State) :
    (holdNotice before h t).notices.mask = t.notices.mask := by
  rcases holdNotice_cases before h t with ⟨_, told⟩ | ⟨_, told⟩ | ⟨_, _, told⟩ <;> rw [told] <;> rfl

theorem holdNotice_rose (before : State) (h k : Hold) (d : Dust) (t : State) :
    Rose before (holdNotice before h t) k d ↔ Rose before t k d := by
  rw [holdNotice_notices]
  exact Iff.rfl

section
variable {before t : State} {h : Hold} {n : Fin 13} {d : Dust}

theorem holdNotice_told (tells : TellsOf n d) (rose : Rose before t h d) :
    noticeAt n (holdNotice before h t) = (true, BitVec.ofNat 16 (h.val + 1)) := by
  have state := rose.2
  rcases holdNotice_cases before h t with ⟨⟨_, trip⟩, told⟩ | ⟨⟨_, alarm⟩, told⟩ | ⟨notTrip, notAlarm, _⟩
  · rcases tells with ⟨rfl, _⟩ | ⟨_, rfl⟩
    · rw [told, setNotice_at, holdNumber_subject]
      rfl
    · cases state.symm.trans trip
  · rcases tells with ⟨_, rfl⟩ | ⟨rfl, _⟩
    · cases state.symm.trans alarm
    · rw [told, setNotice_at, holdNumber_subject]
      rfl
  · rcases tells with ⟨_, rfl⟩ | ⟨_, rfl⟩
    · exact absurd rose notTrip
    · exact absurd rose notAlarm

theorem holdNotice_untold (tells : TellsOf n d) (unrisen : ¬ Rose before t h d) :
    noticeAt n (holdNotice before h t) = noticeAt n t := by
  rcases holdNotice_cases before h t with ⟨rose, told⟩ | ⟨rose, told⟩ | ⟨_, _, told⟩
  · rcases tells with ⟨_, rfl⟩ | ⟨rfl, _⟩
    · exact absurd rose unrisen
    · rw [told, setNotice_at, if_neg (by decide)]
  · rcases tells with ⟨rfl, _⟩ | ⟨_, rfl⟩
    · rw [told, setNotice_at, if_neg (by decide)]
    · exact absurd rose unrisen
  · rw [told]

theorem holdNotice_elsewhere (before t : State) (h : Hold) (trip : n ≠ 1) (alarm : n ≠ 6) :
    noticeAt n (holdNotice before h t) = noticeAt n t := by
  rcases holdNotice_cases before h t with ⟨_, told⟩ | ⟨_, told⟩ | ⟨_, _, told⟩
  · rw [told, setNotice_at]
    exact if_neg trip
  · rw [told, setNotice_at]
    exact if_neg alarm
  · rw [told]

end

/-- The rises of some holds are told, in this order. -/
def risesTold (before : State) (l : List Hold) (t : State) : State := l.foldl (fun t h => holdNotice before h t) t

theorem risesTold_cons (before : State) (h : Hold) (l : List Hold) (t : State) :
    risesTold before (h :: l) t = risesTold before l (holdNotice before h t) := rfl

theorem risesTold_notices (before : State) (l : List Hold) (t : State) :
    risesTold before l t = t.withNotices (risesTold before l t).notices := by
  induction l generalizing t with
  | nil => rfl
  | cons h l ih =>
    have told := holdNotice_notices before h t
    exact (ih _).trans (congrArg (fun u => u.withNotices (risesTold before (h :: l) t).notices) told)

theorem risesTold_keeps {κ : Type} {k : State → κ} {before : State} (hk : ∀ h t, k (holdNotice before h t) = k t)
    (l : List Hold) (t : State) : k (risesTold before l t) = k t := keeps_foldl _ (fun t h => hk h t) l t

section
variable {before t : State} {n : Fin 13} {d : Dust} (tells : TellsOf n d) {l : List Hold}
include tells

theorem risesTold_untold (unrisen : ∀ h ∈ l, ¬ Rose before t h d) : noticeAt n (risesTold before l t) = noticeAt n t := by
  induction l generalizing t with
  | nil => rfl
  | cons a l ih =>
    obtain ⟨here, rest⟩ := List.forall_mem_cons.mp unrisen
    rw [risesTold_cons, ih fun h mem => mt (holdNotice_rose _ _ _ _ _).mp (rest h mem), holdNotice_untold tells here]

theorem risesTold_flag :
    (noticeAt n (risesTold before l t)).1 = true ↔ (noticeAt n t).1 = true ∨ ∃ h ∈ l, Rose before t h d := by
  induction l generalizing t with
  | nil => simp [risesTold]
  | cons a l ih =>
    rw [risesTold_cons, ih]
    simp only [List.mem_cons, exists_eq_or_imp, holdNotice_rose]
    by_cases rose : Rose before t a d
    · rw [holdNotice_told tells rose]
      simp [rose]
    · rw [holdNotice_untold tells rose]
      simp [rose]

/-- Told in ascending order, the last risen hold is the subject. -/
theorem risesTold_last {h : Hold} (ascending : l.Pairwise (· < ·)) (mem : h ∈ l) (rose : Rose before t h d)
    (last : ∀ k : Hold, h < k → ¬ Rose before t k d) :
    noticeAt n (risesTold before l t) = (true, BitVec.ofNat 16 (h.val + 1)) := by
  induction l generalizing t with
  | nil => cases mem
  | cons a l ih =>
    obtain ⟨above, ascending⟩ := List.pairwise_cons.mp ascending
    rw [risesTold_cons]
    rcases List.mem_cons.mp mem with rfl | mem
    · rw [risesTold_untold tells fun k hk => mt (holdNotice_rose _ _ _ _ _).mp (last k (above k hk)),
        holdNotice_told tells rose]
    · exact ih ascending mem ((holdNotice_rose _ _ _ _ _).mpr rose) fun k hk => mt (holdNotice_rose _ _ _ _ _).mp (last k hk)

end

/-! ## The reduce order of an ALARM rise (R116) -/

/-- The hold under a fitted spout rose from QUIET or WATCH to ALARM. -/
def AlarmRise (before s : State) (sp : Spout) : Prop :=
  fitted s sp = true ∧ ∃ h, currentHold s sp = some h ∧ s.holdDust[h] = .alarm ∧
    (before.holdDust[h] = .quiet ∨ before.holdDust[h] = .watch)

section
variable {before s : State} {sp : Spout}

theorem alarmRise_iff : (fitted s sp && roseToAlarm before s sp) = true ↔ AlarmRise before s sp := by
  rw [Bool.and_eq_true, AlarmRise]
  refine and_congr_right fun _ => ?_
  unfold roseToAlarm
  cases currentHold s sp with
  | none => simp
  | some h => simp only [Bool.and_eq_true, Bool.or_eq_true, beq_iff_eq, Option.some.injEq, exists_eq_left']

theorem alarmReduce_calm (calm : ¬ AlarmRise before s sp) : alarmReduce before sp s = s :=
  if_neg (mt alarmRise_iff.mp calm)

theorem alarmReduce_idle (idle : activeStep s sp = none) : alarmReduce before sp s = s := by
  by_cases rise : AlarmRise before s sp
  · rw [alarmReduce, if_pos (alarmRise_iff.mpr rise), idle]
  · exact alarmReduce_calm rise

variable {r : StepRec} (active : activeStep s sp = some r)
include active

theorem alarmReduce_active (rise : AlarmRise before s sp) : alarmReduce before sp s =
    if capNumber s r < capNumber before r then reduceTo sp (capOfStep s r) s else s := by
  rw [alarmReduce, if_pos (alarmRise_iff.mpr rise), active, ← capOfStep_val, ← capOfStep_val]

theorem alarmReduce_uncut (uncut : capNumber before r ≤ capNumber s r) : alarmReduce before sp s = s := by
  by_cases rise : AlarmRise before s sp
  · rw [alarmReduce_active active rise, if_neg (Nat.not_lt.mpr uncut)]
  · exact alarmReduce_calm rise

theorem alarmReduce_cut (rise : AlarmRise before s sp) (cut : capNumber s r < capNumber before r) :
    alarmReduce before sp s = reduceTo sp (capOfStep s r) s := by
  rw [alarmReduce_active active rise, if_pos cut]

end

/-! ## What a change of hold dust states starts (R99 to R101) -/

/-- Changed hold dust states: every rise told in ascending hold number, then GATE's work and the activation test. -/
theorem dustKnown_changed {before s : State} (changed : s.holdDust ≠ before.holdDust) : dustKnown before s =
    activationTest (dustSpout before .b (dustSpout before .a
      (s.withNotices (risesTold before (List.finRange 9) s).notices))) := by
  rw [← risesTold_notices]
  exact if_neg changed

/-- Settles O30: the highest head, the change of a head, the rises told one after the other, and GATE's work. -/
theorem holdDustIsTheHighest : Obligations.HoldDustIsTheHighest := by
  unfold Obligations.HoldDustIsTheHighest
  refine ⟨fun s h => ⟨fun i counts => derivedDust_ge counts, derivedDust_among s h, fun x => recomputeHolds_getElem x s h⟩,
    fun s i h => rfl, fun before s => ⟨fun same => if_pos same, fun changed => ?_⟩, fun before s sp => ⟨?_, ?_⟩⟩
  case refine_1 =>
    refine ⟨(risesTold before (List.finRange 9) s).notices, dustKnown_changed changed,
      risesTold_keeps (k := fun t => t.notices.mask) (holdNotice_mask before) _ s,
      fun n trip alarm => ?_, fun n d tells => ⟨?_, fun unrisen => ?_, fun h rose last => ?_⟩⟩
    · have kept := risesTold_keeps (fun h t => holdNotice_elsewhere before t h trip alarm) (List.finRange 9) s
      exact Prod.mk.inj kept
    · have flag := risesTold_flag (before := before) (t := s) tells (l := List.finRange 9)
      simp only [noticeAt, List.mem_finRange, true_and] at flag
      exact flag
    · have untold := risesTold_untold (before := before) (t := s) tells (l := List.finRange 9) fun h _ => unrisen h
      exact (Prod.mk.inj untold).2
    · have told := risesTold_last (before := before) (t := s) tells (List.pairwise_lt_finRange 9) (List.mem_finRange h) rose last
      exact (Prod.mk.inj told).2
  case refine_2 => rw [dustSpout, blocked_eq]
  case refine_3 =>
    exact ⟨alarmReduce_calm, alarmReduce_idle, fun r active => ⟨alarmReduce_uncut active,
      fun rise cut => ⟨capOfStep s r, capOfStep_val s r, alarmReduce_cut active rise cut⟩⟩⟩

end Sys2Proof.Machine
end

section
/-! The plan's records by number, the gate's intended setting, a step that ends, and the credit of a delta to the account step
(R114, R116, R121, R133 to R137, R158). -/

namespace Sys2Proof.Machine

/-! ## The plan's records by number -/

section
variable {s : State} {n : Word16}

theorem findStep_number {r : StepRec} (found : findStep s n = some r) : r.number = n :=
  beq_iff_eq.mp (List.find?_some (p := fun q : StepRec => q.number == n) found)

theorem findStep_isSome : (findStep s n).isSome = true ↔ n ∈ numbers s := by
  simp [findStep, numbers, List.find?_isSome]

section
variable {f : StepRec → StepRec} (sameNumber : ∀ r, (f r).number = r.number)
include sameNumber

/-- Changing the records of one number moves no record and renames none. -/
theorem findStep_updateStep (m : Word16) :
    findStep (updateStep n f s) m = (findStep s m).map fun r => if r.number = n then f r else r := by
  show (s.plan.map _).find? _ = (s.plan.find? _).map _
  rw [List.find?_map]
  congr 2
  funext r
  show ((if r.number = n then f r else r).number == m) = (r.number == m)
  split
  · rw [sameNumber]
  · rfl

theorem findStep_updateStep_same {r : StepRec} (found : findStep s n = some r) :
    findStep (updateStep n f s) n = some (f r) := by
  rw [findStep_updateStep sameNumber, found, Option.map_some, if_pos (findStep_number found)]

theorem findStep_updateStep_other {m : Word16} (other : m ≠ n) : findStep (updateStep n f s) m = findStep s m := by
  rw [findStep_updateStep sameNumber]
  cases found : findStep s m with
  | none => rfl
  | some r => rw [Option.map_some, if_neg (by rw [findStep_number found]; exact other)]

end

/-- A number that names no record changes none. -/
theorem updateStep_absent (absent : findStep s n = none) (f : StepRec → StepRec) : updateStep n f s = s := by
  have same : planWith n f s = s.plan := by
    refine (List.map_congr_left fun r mem => if_neg ?_).trans (List.map_id s.plan)
    exact fun named => List.find?_eq_none.mp absent r mem (beq_iff_eq.mpr named)
  show s.withPlan (planWith n f s) = s
  rw [same]
  rfl

theorem filled_iff (r : StepRec) : r.complete = true ↔ Filled r := by
  rw [StepRec.complete, Bool.and_eq_true, beq_iff_eq, decide_eq_true_iff, Filled]

end

/-! ## A step ends as DONE (R134) -/

theorem doneTold_eq (n : Word16) (s : State) : countDoneStep (setNotice .stepDone n s) = doneTold n s := by
  unfold countDoneStep doneTold
  cases slot : openSlot s with
  | none => exact updateOpenBill_none (s := setNotice .stepDone n s) slot _
  | some i =>
    obtain ⟨b, record, _⟩ := openSlot_some slot
    dsimp only
    rw [record]
    exact updateOpenBill_some (s := setNotice .stepDone n s) slot record _

theorem enterDone_eq (r : StepRec) (s : State) : enterDone r s = stepEnded r .done s := by
  have closed : (if r.state = .active then closeUnlessClosed r.spout (setStepState r.number .done s)
      else setStepState r.number .done s) = (s.withPlan (planWith r.number (fun q => { q with state := .done }) s)).withOrders
        (if r.state = .active then closedOrders r.spout s else s.orders) := by
    split
    · exact closeUnlessClosed_eq _ _
    · rfl
  unfold enterDone
  dsimp only
  rw [closed, doneTold_eq]
  rfl

/-! ## The gate's intended setting and the reduce order (R114, R116) -/

section
variable {s : State} {sp : Spout}

theorem intended_waiting {y : Setting} (waits : gateWaiting s sp = some y) : intended s sp = some y := by
  rw [intended, waits]

section
variable (idle : gateWaiting s sp = none)
include idle

theorem intended_changing {y : Setting} {b : Carrier} (state : (s.gates.get sp).state = .changing y b) :
    intended s sp = some y := by
  rw [intended, idle, state]

theorem intended_unsure (state : (s.gates.get sp).state = .rest .unsure) : intended s sp = none := by
  rw [intended, idle, state]

theorem intended_known (state : (s.gates.get sp).state = .rest .closed ∨ (s.gates.get sp).state = .rest .opened) :
    intended s sp = some (s.gates.get sp).confirmed := by
  rw [intended, idle]
  obtain state | state := state <;> rw [state]

end

theorem reduceTo_above {x y : Setting} {r : StepRec} (active : activeStep s sp = some r) (aim : intended s sp = some y)
    (above : x.val < y.val) : reduceTo sp x s = s.withOrders (withGateOrder s sp x s.orders) := by
  rw [reduceTo, active, aim]
  dsimp only
  rw [if_pos above, postGate_eq]

theorem reduceTo_notAbove {x : Setting}
    (notAbove : ∀ r y, activeStep s sp = some r → intended s sp = some y → ¬ x.val < y.val) : reduceTo sp x s = s := by
  unfold reduceTo
  split
  · rename_i r y active aim
    exact if_neg (notAbove r y active aim)
  · rfl

end

/-! ## The top-off test (R135) -/

section
variable {s : State} {n : Word16}

/-- What R135 tests. -/
def TopOffDue (r : StepRec) : Prop :=
  r.mode = .count ∧ r.topOffThreshold ≠ 0 ∧ r.inTopOff = false ∧ r.state = .active ∧
    r.effTarget ≤ r.poured.toNat + r.topOffThreshold.toNat

theorem topOffDue_iff (r : StepRec) : r.topOffDue = true ↔ TopOffDue r := by
  simp only [StepRec.topOffDue, TopOffDue, Bool.and_eq_true, beq_iff_eq, bne_iff_ne, Bool.not_eq_true', decide_eq_true_iff,
    and_assoc, Nat.sub_le_iff_le_add']

theorem topOff_absent (absent : findStep s n = none) : topOff n s = s := by
  rw [topOff, absent]

variable {r : StepRec} (found : findStep s n = some r)
include found

theorem topOff_notDue (notDue : ¬ TopOffDue r) : topOff n s = s := by
  rw [topOff, found]
  exact if_neg (mt (topOffDue_iff r).mp notDue)

theorem topOff_due (due : TopOffDue r) : topOff n s =
    let t := s.withPlan (planWith n (fun x => { x with inTopOff := true }) s)
    if capNumber s { r with inTopOff := true } < capNumber s r then
      reduceTo r.spout (capOfStep s { r with inTopOff := true }) t
    else t := by
  rw [topOff, found, ← capOfStep_val, ← capOfStep_val]
  exact if_pos ((topOffDue_iff r).mpr due)

end

/-! ## The credit of a delta to the account step (R121, R137) -/

/-- An amount after a credit, at most 4294967295. -/
def credited (d w : Word32) : Word32 := BitVec.ofNat 32 (min 4294967295 (w.toNat + d.toNat))

theorem satAdd32_eq (w d : Word32) : satAdd32 w d = credited d w := by
  refine BitVec.eq_of_toNat_eq ?_
  have small : min 4294967295 (w.toNat + d.toNat) < 2 ^ 32 := by omega
  rw [credited, BitVec.toNat_ofNat, Nat.mod_eq_of_lt small, satAdd32]
  split
  · rename_i full
    rw [Nat.min_eq_left (Nat.le_of_lt full)]
    rfl
  · rw [BitVec.toNat_add]
    omega

/-- The part with the amount of a step credited. -/
def creditedState (n : Word16) (d : Word32) (s : State) : State :=
  s.withPlan (planWith n (fun x => { x with poured := credited d x.poured }) s)

section
variable {s : State} {sp : Spout} (d : Word32)

/-- A delta without an account step in the plan is credited to none. -/
theorem creditStep_absent (absent : ∀ n r, s.account.get sp = some n → findStep s n ≠ some r) :
    creditStep sp d s = (s, false) := by
  unfold creditStep
  split
  · rfl
  · rename_i n account
    have none : findStep s n = none := Option.eq_none_iff_forall_ne_some.mpr fun r => absent n r account
    dsimp only
    rw [updateStep_absent none, none]

/-- The credit ends a WAITING or pouring step. -/
def CreditFills (r : StepRec) : Prop :=
  (r.state = .waiting ∨ r.state = .active ∨ r.state = .held) ∧ Filled { r with poured := credited d r.poured }

theorem creditFills_iff (r : StepRec) :
    (r.state = .waiting ∨ r.pouring = true) ∧ ({ r with poured := credited d r.poured } : StepRec).complete = true ↔
      CreditFills d r := by
  rw [filled_iff, StepRec.pouring, Bool.or_eq_true, beq_iff_eq, beq_iff_eq, CreditFills]

theorem findStep_creditedState_other {n m : Word16} (other : m ≠ n) :
    findStep (creditedState n d s) m = findStep s m :=
  findStep_updateStep_other (f := fun x => { x with poured := credited d x.poured }) (fun _ => rfl) other

section
variable {n : Word16} {r : StepRec} (found : findStep s n = some r)
include found

theorem findStep_creditedState :
    findStep (creditedState n d s) n = some { r with poured := credited d r.poured } :=
  findStep_updateStep_same (f := fun x => { x with poured := credited d x.poured }) (fun _ => rfl) found

variable (account : s.account.get sp = some n)
include account

theorem creditStep_found : creditStep sp d s =
    let q := { r with poured := credited d r.poured }
    if (r.state = .waiting ∨ r.pouring = true) ∧ q.complete = true then (enterDone q (creditedState n d s), true)
    else if r.state = .active then (topOff n (creditedState n d s), false)
    else (creditedState n d s, false) := by
  have sat : updateStep n (fun x => { x with poured := satAdd32 x.poured d }) s = creditedState n d s := by
    simp only [satAdd32_eq]
    rfl
  rw [creditStep, account]
  dsimp only
  rw [sat, findStep_creditedState d found]
  rfl

theorem creditStep_fills (fills : CreditFills d r) :
    creditStep sp d s = (stepEnded { r with poured := credited d r.poured } .done (creditedState n d s), true) := by
  rw [creditStep_found d found account, ← enterDone_eq]
  exact if_pos ((creditFills_iff d r).mpr fills)

variable (short : ¬ CreditFills d r)
include short

theorem creditStep_active (active : r.state = .active) : creditStep sp d s = (topOff n (creditedState n d s), false) := by
  rw [creditStep_found d found account]
  exact (if_neg (mt (creditFills_iff d r).mp short)).trans (if_pos active)

theorem creditStep_inactive (inactive : r.state ≠ .active) : creditStep sp d s = (creditedState n d s, false) := by
  rw [creditStep_found d found account]
  exact (if_neg (mt (creditFills_iff d r).mp short)).trans (if_neg inactive)

end

end

/-! ## A plausible delta (R156, R158) -/

/-- A scale poll that reports a plausible delta: the credit, the placing, and the activation test where a step became
DONE. -/
theorem exec_plausibleDelta {s : State} {c : Instr} {t : Transaction} {sp : Spout} {v : Word32}
    (ends : Ends s t c (some (0 :: (bytes32 v ++ [0])))) (work : t.work = .poll (.scale sp))
    (valid : (s.baselines.get sp).valid = true) (moved : v - (s.baselines.get sp).value ≠ 0)
    (plausible : (v - (s.baselines.get sp).value).toNat ≤ s.settings.inUse.maxDelta.toNat) :
    exec c s = .next (arbitrate (attributeDelta sp (v - (s.baselines.get sp).value)
      (setBaseline sp { value := v, valid := true } (lineFreed (some (0 :: (bytes32 v ++ [0]))) s)))) := by
  have report : outcomeTaken t (some (0 :: (bytes32 v ++ [0]))) = scaleReport sp (some v) := by
    funext u
    rw [outcomeTaken, work, ← (readScale_some _ v).mpr rfl]
    rfl
  have ne : v ≠ (s.baselines.get sp).value := fun same => moved (sub_eq_zero.mpr same)
  rw [exec_ends ends, report, scaleReport_moved (s := lineFreed (some (0 :: (bytes32 v ++ [0]))) s) valid ne]
  exact congrArg (fun u => Host.Outcome.next (arbitrate u)) (if_pos plausible)

/-- Settles O44: the scale poll, the credit by the account step's state, the top-off test, and the reduce order. -/
theorem deltaCreditsAccountStep : Obligations.DeltaCreditsAccountStep := by
  unfold Obligations.DeltaCreditsAccountStep
  refine ⟨fun s c t sp v ends work valid moved plausible => exec_plausibleDelta ends work valid moved plausible,
    fun s sp d => ⟨creditStep_absent d, fun n r account found => ?credit⟩,
    fun s n => ⟨topOff_absent, fun r found => ?topOff⟩,
    fun s sp x => ⟨fun r y => reduceTo_above, reduceTo_notAbove, fun y => intended_waiting, fun idle =>
      ⟨fun y b => intended_changing idle, intended_unsure idle, intended_known idle⟩⟩⟩
  case credit =>
    exact ⟨creditStep_fills d found account, creditStep_active d found account, creditStep_inactive d found account,
      findStep_creditedState d found, fun m other => findStep_creditedState_other d other⟩
  case topOff =>
    refine ⟨topOff_notDue found, fun due uncut => ?_, fun due cut => ⟨_, capOfStep_val s _, ?_⟩⟩
    · exact (topOff_due found due).trans (if_neg (Nat.not_lt.mpr uncut))
    · exact (topOff_due found due).trans (if_pos cut)

end Sys2Proof.Machine
end

section
/-! APPEND_STEP and the activation test (R117, R121 to R123, R126, R128 to R134). -/

namespace Sys2Proof.Machine

/-! ## The fields of a step in range (R123 check 1) -/

/-- The fields of an APPEND_STEP are in range. -/
def StepFieldsGood (f : StepFields) : Prop :=
  f.spout.toNat ≤ 1 ∧ (1 ≤ f.hold.toNat ∧ f.hold.toNat ≤ 9) ∧ f.mode.toNat ≤ 1 ∧ f.openBy.toNat ≤ 1 ∧
    (1 ≤ f.gateSetting.toNat ∧ f.gateSetting.toNat ≤ 31) ∧
    (f.mode = 0 → f.topOffThreshold ≠ 0 → 1 ≤ f.topOffSetting.toNat ∧ f.topOffSetting.toNat ≤ 31)

/-- The record those fields make, but for its number (R121, R123). -/
def RecordOf (f : StepFields) (r : StepRec) : Prop :=
  r.kind = .plan ∧ r.spout.byte = f.spout ∧ holdByte r.hold = f.hold ∧ r.mode.byte = f.mode ∧
  r.target = (if f.mode = 0 then f.target else 0) ∧ settingByte r.gateSetting = f.gateSetting ∧
  r.topOffThreshold = (if f.mode = 0 then f.topOffThreshold else 0) ∧
  settingByte r.topOffSetting = (if f.mode = 0 ∧ f.topOffThreshold ≠ 0 then f.topOffSetting else 0) ∧
  r.openBy.byte = f.openBy ∧ r.after = (if f.after = 0 then none else some f.after) ∧ r.poured = 0 ∧
  r.inTopOff = false ∧ r.state = .waiting

section
variable {b : Byte}

theorem spoutOfByte_some (h : b.toNat ≤ 1) : ∃ sp, spoutOfByte b = some sp ∧ sp.byte = b := by
  revert b; decide

theorem modeOfByte_some (h : b.toNat ≤ 1) : ∃ m, modeOfByte b = some m ∧ m.byte = b := by
  revert b; decide

theorem openByOfByte_some (h : b.toNat ≤ 1) : ∃ o, openByOfByte b = some o ∧ o.byte = b := by
  revert b; decide

theorem modeOfByte_range {m : PourMode} (h : modeOfByte b = some m) : b.toNat ≤ 1 ∧ (m = .count ↔ b = 0) := by
  revert b m; decide

theorem openByOfByte_range {o : OpenBy} (h : openByOfByte b = some o) : b.toNat ≤ 1 := by
  revert b o; decide

theorem spoutOfByte_range {sp : Spout} (h : spoutOfByte b = some sp) : b.toNat ≤ 1 := by
  revert b sp; decide

theorem holdOfByte_range {x : Hold} (h : holdOfByte b = some x) : 1 ≤ b.toNat ∧ b.toNat ≤ 9 :=
  Decidable.byContradiction fun outside => by cases h.symm.trans (holdOfByte_none outside)

theorem pourSetting_some (h : 1 ≤ b.toNat ∧ b.toNat ≤ 31) : ∃ x, pourSetting b = some x ∧ settingByte x = b := by
  revert b; decide

theorem pourSetting_none (h : ¬ (1 ≤ b.toNat ∧ b.toNat ≤ 31)) : pourSetting b = none := by
  revert b; decide

theorem pourSetting_range {x : Setting} (h : pourSetting b = some x) : 1 ≤ b.toNat ∧ b.toNat ≤ 31 :=
  Decidable.byContradiction fun outside => by cases h.symm.trans (pourSetting_none outside)

theorem holdByte_of_val {x : Hold} (h : x.val + 1 = b.toNat) : holdByte x = b := by
  rw [holdByte, h, byteOfNat_toNat]

end

section
variable {mode : PourMode} {threshold : Word16} {b : Byte}

/-- The top-off setting is in range where the step has a top-off, and 0 is stored where it has none. -/
theorem topOffStored_some (h : mode = .count → threshold ≠ 0 → 1 ≤ b.toNat ∧ b.toNat ≤ 31) :
    ∃ x, topOffStored mode threshold b = some x ∧ settingByte x = if mode = .count ∧ threshold ≠ 0 then b else 0 := by
  unfold topOffStored
  split
  · rename_i has
    exact pourSetting_some (h has.1 has.2)
  · exact ⟨0, rfl, rfl⟩

theorem topOffStored_range {x : Setting} (h : topOffStored mode threshold b = some x) (count : mode = .count)
    (has : threshold ≠ 0) : 1 ≤ b.toNat ∧ b.toNat ≤ 31 := by
  rw [topOffStored, if_pos ⟨count, has⟩] at h
  exact pourSetting_range h

end

section
variable {f : StepFields}

theorem stepFieldsGood_of_some {mk : Word16 → StepRec} (h : stepOfFields f = some mk) : StepFieldsGood f := by
  unfold stepOfFields at h
  split at h
  · rename_i sp hold mode openBy gate hsp hhold hmode hopen hgate
    obtain ⟨x, stored, _⟩ := Option.map_eq_some_iff.mp h
    obtain ⟨modeRange, count⟩ := modeOfByte_range hmode
    exact ⟨spoutOfByte_range hsp, holdOfByte_range hhold, modeRange, openByOfByte_range hopen, pourSetting_range hgate,
      fun zero => topOffStored_range stored (count.mpr zero)⟩
  · cases h

theorem stepOfFields_none (bad : ¬ StepFieldsGood f) : stepOfFields f = none :=
  Option.eq_none_iff_forall_ne_some.mpr fun _ h => bad (stepFieldsGood_of_some h)

theorem stepOfFields_some (good : StepFieldsGood f) :
    ∃ mk, stepOfFields f = some mk ∧ ∀ n, (mk n).number = n ∧ RecordOf f (mk n) := by
  obtain ⟨spoutRange, holdRange, modeRange, openRange, gateRange, topOffRange⟩ := good
  obtain ⟨sp, hsp, spByte⟩ := spoutOfByte_some spoutRange
  obtain ⟨hold, hhold, holdVal⟩ := holdOfByte_some holdRange
  obtain ⟨mode, hmode, modeByte⟩ := modeOfByte_some modeRange
  obtain ⟨openBy, hopen, openByte⟩ := openByOfByte_some openRange
  obtain ⟨gate, hgate, gateByte⟩ := pourSetting_some gateRange
  have count : mode = .count ↔ f.mode = 0 := (modeOfByte_range hmode).2
  obtain ⟨x, stored, xByte⟩ := topOffStored_some (mode := mode) fun isCount => topOffRange (count.mp isCount)
  refine ⟨_, by rw [stepOfFields, hsp, hhold, hmode, hopen, hgate]; dsimp only; rw [stored]; rfl, fun n => ⟨rfl, ?_⟩⟩
  exact ⟨rfl, spByte, holdByte_of_val holdVal, modeByte, if_congr count rfl rfl, gateByte, if_congr count rfl rfl,
    xByte.trans (if_congr (and_congr_left' count) rfl rfl), openByte, rfl, rfl, rfl, rfl⟩

end

/-! ## APPEND_STEP's checks and the step's number (R122, R123) -/

section
variable {s : State}

theorem afterKnown_iff (w : Word16) : afterKnown s w = true ↔ w = 0 ∨ w ∈ numbers s := by
  rw [afterKnown, Bool.or_eq_true, beq_iff_eq, findStep_isSome]

/-- A counter value that names no record is the next number. -/
theorem nextNumber_counter (free : s.stepCounter ∉ numbers s) : nextNumber s = s.stepCounter := by
  unfold nextNumber
  cases s.plan.length with
  | zero => rfl
  | succ k => exact if_neg free

theorem nextNumber_unused (counter : s.stepCounter ≠ 0) (room : s.plan.length < 32) :
    nextNumber s ∉ numbers s ∧ nextNumber s ≠ 0 := by
  have length : (numbers s).length = s.plan.length := List.length_map _
  have free := freeNumber_free (numbers s) s.stepCounter counter (by omega)
  rw [length] at free
  exact ⟨free, freeNumber_ne_zero _ _ _ counter⟩

variable {f : StepFields}

theorem appendStep_bad (bad : ¬ StepFieldsGood f) : appendStep f s = Reply.refuse .badValue s := by
  rw [appendStep, stepOfFields_none bad]

variable {mk : Word16 → StepRec} (read : stepOfFields f = some mk)
include read

theorem appendStep_unlinked (link : f.after ≠ 0) (unknown : f.after ∉ numbers s) :
    appendStep f s = Reply.refuse .noSuchStep s := by
  have missing : afterKnown s f.after = false :=
    Bool.eq_false_iff.mpr fun known => ((afterKnown_iff _).mp known).elim link unknown
  rw [appendStep, read]
  dsimp only
  rw [missing]
  rfl

variable (known : f.after = 0 ∨ f.after ∈ numbers s)
include known

theorem appendStep_full (full : 32 ≤ s.plan.length) : appendStep f s = Reply.refuse .planFull s := by
  rw [appendStep, read]
  dsimp only
  rw [(afterKnown_iff _).mpr known]
  exact if_pos full

theorem appendStep_joins (room : s.plan.length < 32) : appendStep f s =
    Reply.ok (bytes16 (nextNumber s)) (activationTest (joinPlan mk (fun x l => l ++ [x]) s)) := by
  rw [appendStep, read]
  dsimp only
  rw [(afterKnown_iff _).mpr known]
  exact if_neg (Nat.not_le.mpr room)

end

/-! ## The conditions of the activation test (R126, R128, R131) -/

section
variable (s : State) (r : StepRec)

theorem settledOver_iff (sp : Spout) (h : Hold) : settledOver s sp h = true ↔
    (s.spouts.get sp).state = .settled ∧ (s.zone (s.spouts.get sp).current).zoneType = .hold ∧
      (s.zone (s.spouts.get sp).current).hold = some h := by
  rw [settledOver, Bool.and_eq_true, beq_iff_eq, beq_iff_eq, currentHold, Zone.holdOf, Option.ite_none_right_eq_some]

theorem mayPour_iff : mayPour s r = true ↔ PourAllowed s r := by
  rw [mayPour, Bool.and_eq_true, Bool.and_eq_true, Bool.and_eq_true, beq_iff_eq, settledOver_iff, blocked_eq, bne_iff_ne,
    PourAllowed, and_assoc, and_assoc, Bool.not_eq_true', decide_eq_false_iff_not, not_not]

theorem afterSatisfied_iff : afterSatisfied s r = true ↔ LinkSatisfied s r := by
  unfold afterSatisfied LinkSatisfied
  cases r.after with
  | none => exact iff_of_true rfl fun n q link => nomatch link
  | some n =>
    dsimp only
    cases found : findStep s n with
    | none =>
      refine iff_of_true rfl fun m q link named => ?_
      obtain rfl := Option.some.inj link
      cases found.symm.trans named
    | some q =>
      have finished : q.finished = true ↔ q.state = .done ∨ q.state = .cancelled := by
        rw [StepRec.finished, Bool.or_eq_true, beq_iff_eq, beq_iff_eq]
      refine finished.trans ⟨fun ended m p link named => ?_, fun all => all n q rfl found⟩
      obtain rfl := Option.some.inj link
      exact Option.some.inj (found.symm.trans named) ▸ ended

end

/-! ## The test of one spout's running step (R128, R129, R131) -/

section
variable {s : State} {sp : Spout}

theorem testSpout_none (idle : runningStep s sp = none) : testSpout sp s = (s, false) := by
  rw [testSpout, idle]

variable {r : StepRec} (running : runningStep s sp = some r)
include running

section
variable (waiting : r.state = .waiting)
include waiting

theorem testSpout_filled (filled : Filled r) : testSpout sp s = (stepEnded r .done s, true) := by
  rw [testSpout, running, ← enterDone_eq]
  exact (if_pos waiting).trans (if_pos ((filled_iff r).mpr filled))

variable (short : ¬ Filled r)
include short

theorem testSpout_waiting : testSpout sp s =
    if mayPour s r && afterSatisfied s r then (activate r s, false) else (s, false) := by
  rw [testSpout, running]
  exact (if_pos waiting).trans (if_neg (mt (filled_iff r).mp short))

theorem testSpout_activates (allowed : PourAllowed s r) (link : LinkSatisfied s r) :
    testSpout sp s = (activate r s, false) := by
  rw [testSpout_waiting running waiting short, (mayPour_iff s r).mpr allowed, (afterSatisfied_iff s r).mpr link]
  rfl

theorem testSpout_waits (barred : ¬ (PourAllowed s r ∧ LinkSatisfied s r)) : testSpout sp s = (s, false) := by
  rw [testSpout_waiting running waiting short]
  refine if_neg fun conditions => barred ?_
  obtain ⟨allowed, link⟩ := (Bool.and_eq_true _ _).mp conditions
  exact ⟨(mayPour_iff s r).mp allowed, (afterSatisfied_iff s r).mp link⟩

end

section
variable (held : r.state = .held)
include held

theorem testSpout_held : testSpout sp s = if mayPour s r then (returnActive r s, false) else (s, false) := by
  rw [testSpout, running]
  exact (if_neg (by rw [held]; decide)).trans (if_pos held)

theorem testSpout_returns (allowed : PourAllowed s r) : testSpout sp s = (returnActive r s, false) :=
  (testSpout_held running held).trans (if_pos ((mayPour_iff s r).mpr allowed))

theorem testSpout_holds (barred : ¬ PourAllowed s r) : testSpout sp s = (s, false) :=
  (testSpout_held running held).trans (if_neg (mt (mayPour_iff s r).mp barred))

end

theorem testSpout_pours (active : r.state = .active) : testSpout sp s = (s, false) := by
  rw [testSpout, running]
  exact (if_neg (by rw [active]; decide)).trans (if_neg (by rw [active]; decide))

end

/-! ## A step that becomes ACTIVE, and one that leaves its hold (R117, R129, R132) -/

section
variable {s : State} {r : StepRec}

theorem poursNow_supervisor (mode : r.openBy = .supervisor) : poursNow r s = topOff r.number s :=
  if_neg (by rw [mode]; decide)

theorem poursNow_auto (mode : r.openBy = .auto) : poursNow r s = openAtCap r.spout (topOff r.number s) := if_pos mode

variable {sp : Spout}

theorem openAtCap_none (idle : pouringStep s sp = none) : openAtCap sp s = s := by
  rw [openAtCap, cap, idle]
  rfl

theorem openAtCap_some {q : StepRec} (pours : pouringStep s sp = some q) :
    openAtCap sp s = s.withOrders (withGateOrder s sp (capOfStep s q) s.orders) := by
  rw [openAtCap, cap, pours, ← postGate_eq]
  rfl

theorem leaveHold_left (pours : pouringStep s sp = some r) (held : r.state = .held) (left : currentHold s sp ≠ some r.hold) :
    leaveHold sp s = s.withPlan (planWith r.number (fun q => { q with state := .waiting }) s) := by
  rw [leaveHold, pours]
  exact if_pos ⟨held, left⟩

theorem leaveHold_stays (stays : ∀ r, pouringStep s sp = some r → r.state = .held → currentHold s sp = some r.hold) :
    leaveHold sp s = s := by
  unfold leaveHold
  split
  · rename_i r pours
    exact if_neg fun ⟨held, left⟩ => left (stays r pours held)
  · rfl

end

/-! ## The whole activation test (R128) -/

theorem activationTest_rounds {s : State} (good : PlanGood s) : Rounds s (activationTest s) :=
  activationRounds_rounds _ s good (Nat.lt_of_le_of_lt List.countP_le_length (by omega))

theorem activationTest_writes (s : State) : ∃ t : State, activationTest s =
    { s with
      orders := t.orders, plan := t.plan, stepCounter := t.stepCounter, account := t.account, stack := t.stack
      bills := t.bills, notices := t.notices } := by
  refine ⟨activationTest s, ?_⟩
  have kept := activationTest_withoutPlan s
  generalize activationTest s = t at kept
  calc t = { withoutPlan t with
        orders := t.orders, plan := t.plan, stepCounter := t.stepCounter, account := t.account, stack := t.stack
        bills := t.bills, notices := t.notices } := rfl
    _ = _ := by rw [kept]; rfl

/-! ## O47 -/

/-- APPEND_STEP of fields in range over a plan with room: the record at the tail, the counter past its number, then the
activation test and the REPLY. -/
theorem exec_appendStep_joins {tag : Byte} {f : StepFields} {s : State} {mk : Word16 → StepRec} (taken : Taken s)
    (read : stepOfFields f = some mk) (known : f.after = 0 ∨ f.after ∈ numbers s) (room : s.plan.length < 32) :
    exec (.appendStep tag f) s = .next (arbitrate (testedReply tag .done (bytes16 (nextNumber s))
      (((heard s).withPlan (s.plan ++ [mk (nextNumber s)])).withStepCounter (advance (nextNumber s))))) := by
  have run : exec (.appendStep tag f) s = .next (receive (repliedActs tag (appendStep f)) s) := rfl
  rw [run, receive_taken taken, repliedActs, replied_ok (appendStep_joins (s := heard s) read known room)]
  rfl

/-- Settles O47: the checks and the record, one spout's test by its running step's state, what an ACTIVE step starts, and
the rounds. -/
theorem appendStep_checksThenJoins : Obligations.AppendStep := by
  unfold Obligations.AppendStep
  refine ⟨fun tag f s taken => ⟨fun bad => ?_, fun good link unknown => ?_, fun good known full => ?_,
      fun good known room => ?_⟩,
    fun s sp => ⟨testSpout_none, fun r running => ⟨testSpout_filled running, testSpout_activates running,
      testSpout_waits running, testSpout_returns running, testSpout_holds running, testSpout_pours running⟩⟩,
    fun s r => ⟨poursNow_supervisor, fun mode idle => (poursNow_auto mode).trans (openAtCap_none idle),
      fun q mode pours => ⟨_, capOfStep_val _ q, (poursNow_auto mode).trans (openAtCap_some pours)⟩⟩,
    fun s => activationTest_rounds, activationTest_writes,
    fun s sp => ⟨fun r => leaveHold_left, leaveHold_stays⟩⟩
  case refine_1 => exact exec_acts_unchanged taken rfl (appendStep_bad (s := heard s) bad)
  case refine_2 =>
    obtain ⟨mk, read, _⟩ := stepOfFields_some good
    exact exec_acts_unchanged taken rfl (appendStep_unlinked (s := heard s) read link unknown)
  case refine_3 =>
    obtain ⟨mk, read, _⟩ := stepOfFields_some good
    exact exec_acts_unchanged taken rfl (appendStep_full (s := heard s) read known full)
  case refine_4 =>
    obtain ⟨mk, read, fields⟩ := stepOfFields_some good
    obtain ⟨number, record⟩ := fields (nextNumber s)
    refine ⟨mk (nextNumber s), ?_, ?_, ?_, record⟩
    · rw [number]
      exact exec_appendStep_joins taken read known room
    · exact fun free => number.trans (nextNumber_counter free)
    · rw [number]
      exact fun counter => nextNumber_unused counter room

end Sys2Proof.Machine
end

section
/-! What an event can do to the plan and the bill table, and the forms of both through a step (R120, R122, R160 to R163). -/

namespace Sys2Proof.Machine

/-- What `PlanGood` and `BillsGood` read. -/
def records (s : State) : List StepRec × Word16 × Vector (Option Bill) 8 := (s.plan, s.stepCounter, s.bills)

/-- A bill record becomes, or stays, one that is not OPEN; its number and amounts are as they were. -/
structure Bill.ClosedAs (b c : Bill) : Prop where
  number   : c.number = b.number
  holds    : c.holds = b.holds
  unplaced : c.unplaced = b.unplaced
  total    : c.total = b.total
  state    : c.state ≠ .opened

/-- What an event can do to the plan and the bill table, link by link. -/
inductive RecordWork : State → State → Prop
  | trans {s t u : State} : RecordWork s t → RecordWork t u → RecordWork s u
  | blocks {s t : State} : BlockWork s t → RecordWork s t
  | elsewhere {s t : State} : records t = records s → RecordWork s t
  | purges (s : State) : RecordWork s (purge s)
  | opensBill {s : State} {n : Word16} (i : Fin 8) (minutes : Word32) : openSlot s = none → n ≠ 0 → findBill s n = none →
      RecordWork s (setBill i (newBill n minutes) s)
  | putsClosed {s : State} {i : Fin 8} {b c : Bill} : s.bills[i] = some b → b.ClosedAs c → RecordWork s (setBill i c s)
  | restarts (s : State) : RecordWork s (restartAll s)
  | powersUp (s : State) (clk baud : Bool) : RecordWork s (powerUp clk baud s)

namespace RecordWork

theorem refl (s : State) : RecordWork s s := elsewhere rfl

theorem after {s t u : State} (w : RecordWork t u) (same : records t = records s) : RecordWork s u :=
  (elsewhere same).trans w

end RecordWork

open RecordWork

/-! ## The requests' own work -/

theorem findBill_some {s : State} {n : Word16} {i : Fin 8} {b : Bill} (found : findBill s n = some (i, b)) :
    s.bills[i] = some b ∧ b.number = n := by
  obtain ⟨j, _, here⟩ := List.exists_of_findSome?_eq_some found
  split at here
  · rename_i c record
    split at here
    · rename_i number
      cases here
      exact ⟨record, number⟩
    · cases here
  · cases here

theorem findBill_none {s : State} {n : Word16} (absent : findBill s n = none) {i : Fin 8} {b : Bill}
    (record : s.bills[i] = some b) : b.number ≠ n := by
  intro number
  have here := List.findSome?_eq_none_iff.mp absent i (List.mem_finRange i)
  rw [record] at here
  dsimp only at here
  rw [if_pos number] at here
  cases here

section
variable (s : State)

theorem runRequest_recordWork : RecordWork s (runRequest s).state := by
  unfold runRequest
  split
  · exact refl s
  · exact refl s
  · split
    · exact refl s
    · split
      · exact refl s
      · rw [Reply.ok_state, enterRun_eq]
        exact (blocks (activationTest_work _)).after rfl

theorem haltRequest_work : BlockWork s (haltRequest s).state := by
  unfold haltRequest
  split
  · exact haltEntry_work s .request
  · exact .refl s
  · exact .refl s

theorem resumeRequest_recordWork : RecordWork s (resumeRequest s).state := by
  unfold resumeRequest
  split
  · exact refl s
  · exact refl s
  · split
    · exact refl s
    · rw [Reply.ok_state, leaveHalt_eq]
      exact (blocks (activationTest_work _)).after rfl

/-- A configuration request writes what its write writes. -/
theorem inConfig_reads {κ : Type} {k : State → κ} {w : Option (State → State)} (h : ∀ g, w = some g → k (g s) = k s) :
    k (inConfig (writeIf w) s).state = k s := by
  unfold inConfig
  split
  · cases w with
    | none => rfl
    | some g => exact h g rfl
  · rfl

theorem loadStation_records (a : Byte) (p : Bool) (k u c : Byte) :
    records (loadStation a p k u c s).state = records s := by
  refine inConfig_reads s fun g written => ?_
  unfold writeStation at written
  split at written
  · cases written; rfl
  · cases written

theorem loadZone_records (z : ZoneFields) : records (loadZone z s).state = records s := by
  refine inConfig_reads s fun g written => ?_
  unfold writeZone at written
  split at written
  · split at written
    · cases written
    · cases written; rfl
  · cases written

theorem setZoneLimit_records (l : Byte) : records (setZoneLimit l s).state = records s := by
  refine inConfig_reads s fun g written => ?_
  unfold writeLimit at written
  split at written
  · cases written; rfl
  · cases written

theorem loadHead_records (h : HeadFields) : records (loadHead h s).state = records s := by
  refine inConfig_reads s fun g written => ?_
  unfold writeHead at written
  split at written
  · cases written; rfl
  · cases written

theorem setTiming_records (a b c d : Word16) : records (setTiming a b c d s).state = records s := by
  refine inConfig_reads s fun g written => ?_
  unfold writeTiming at written
  split at written
  · cases written; rfl
  · cases written

theorem setLimits_records (n c : Byte) (d : Word16) : records (setLimits n c d s).state = records s := by
  refine inConfig_reads s fun g written => ?_
  unfold writeLimits at written
  split at written
  · split at written
    · cases written; rfl
    · cases written
  · cases written

theorem setConsoleLevel_records (l : Byte) : records (setConsoleLevel l s).state = records s := by
  unfold setConsoleLevel
  split
  · rfl
  · split <;> rfl

theorem setFreeboard_recordWork (h : Byte) (o : Word16) : RecordWork s (setFreeboard h o s).state := by
  unfold setFreeboard
  split
  · rename_i x _
    split
    · rw [Reply.ok_state]
      have tested : ∀ u sp, BlockWork u (if settledOver u sp x then testOverreach sp u else u) := fun u sp => by
        split
        · exact testOverreach_work u sp
        · exact .refl u
      exact (blocks ((BlockWork.foldl tested _ _).trans (tcuKnown_work _ _))).after rfl
    · exact refl s
  · exact refl s

theorem purgeSteps_recordWork : RecordWork s (purgeSteps s).state := (purges s).trans (blocks (activationTest_work _))

theorem openBill_recordWork (n : Word16) : RecordWork s (openBill n s).state := by
  unfold openBill
  split
  · exact refl s
  · rename_i noneOpen
    split
    · exact refl s
    · rename_i named
      split
      · exact refl s
      · rename_i new
        split
        · exact refl s
        · rename_i i _
          exact opensBill i _ (Option.not_isSome_iff_eq_none.mp noneOpen) named (Option.not_isSome_iff_eq_none.mp new)

theorem closeBill_recordWork : RecordWork s (closeBill s).state := by
  unfold closeBill
  split
  · exact refl s
  · rename_i i b slot
    obtain ⟨j, _, record⟩ := Option.bind_eq_some_iff.mp slot
    obtain ⟨c, record, same⟩ := Option.map_eq_some_iff.mp record
    cases same
    split
    · exact refl s
    · have closed : b.ClosedAs (closedBill b s.clock.minutes) := ⟨rfl, rfl, rfl, rfl, fun h => nomatch h⟩
      exact (putsClosed record closed).trans (blocks (rewindCursor_work _ _))

theorem readBillNext_recordWork : RecordWork s (readBillNext s).state := by
  unfold readBillNext
  split
  · split
    · exact refl s
    · rename_i i b found
      split
      · exact blocks (withStack_work s _)
      · show RecordWork s (markRead i b s)
        unfold markRead
        split
        · rename_i closed
          exact putsClosed (findBill_some found).1 ⟨rfl, rfl, rfl, rfl, fun h => nomatch closed.symm.trans h⟩
        · exact refl s
  · exact refl s

theorem issueBill_recordWork (n : Word16) : RecordWork s (issueBill n s).state := by
  unfold issueBill
  split
  · exact refl s
  · rename_i i b found
    split
    · exact putsClosed (findBill_some found).1 ⟨rfl, rfl, rfl, rfl, fun h => nomatch h⟩
    · exact refl s

theorem nextNotice_records : records (nextNotice s).state = records s := by unfold nextNotice; split <;> rfl

theorem clearNotices_records (n : Word16) : records (clearNotices n s).state = records s := by
  unfold clearNotices; split <;> rfl

theorem setNoticeMask_records (n : Word16) : records (setNoticeMask n s).state = records s := by
  unfold setNoticeMask; split <;> rfl

end

/-! ## Taking a frame -/

theorem receive_recordWork {taken : State → State} (s : State) (h : ∀ u, RecordWork u (taken u)) :
    RecordWork s (receive taken s) := by
  rw [receive_eq]
  split
  · exact refl s
  · split
    · exact elsewhere rfl
    · split
      · exact elsewhere rfl
      · exact (h _).after rfl

section
variable (u : State)

theorem replied_recordWork {tag : Byte} {op : State → Reply} (h : RecordWork u (op u).state) :
    RecordWork u (replied tag op u) := h.trans (elsewhere rfl)

theorem repliedActs_recordWork {tag : Byte} {op : State → Reply} (h : RecordWork u (op u).state) :
    RecordWork u (repliedActs tag op u) := (replied_recordWork u h).trans (blocks (arbitrate_work _))

theorem relayTaken_recordWork {tag dest kind : Byte} {arrival : State → State} (h : RecordWork u (arrival u)) :
    RecordWork u (relayTaken tag dest kind arrival u) := by
  unfold relayTaken
  split
  · exact h.trans (blocks (arbitrate_work _))
  · exact elsewhere rfl

theorem moveArrival_recordWork (tag dest : Byte) (m : MoveFields) : RecordWork u (moveArrival tag dest m u) := by
  unfold moveArrival
  split
  · exact elsewhere rfl
  · split
    · exact elsewhere rfl
    · exact (blocks (acceptMove_work u _ _ _)).trans (elsewhere rfl)

theorem gateArrival_records (tag dest : Byte) (x : GateFields) : records (gateArrival tag dest x u) = records u := by
  unfold gateArrival
  split
  · rfl
  · split
    · rfl
    · split <;> rfl

theorem plainArrival_records (tag dest : Byte) (data : List Byte) :
    records (plainArrival tag dest data u) = records u := by
  unfold plainArrival
  split <;> rfl

/-- What a taken request can do to the plan and the bills. -/
theorem carriedOut_recordWork (c : Instr) : RecordWork u (carriedOut c u) := by
  cases c with
  | move t d m => exact relayTaken_recordWork u (moveArrival_recordWork u t d m)
  | gate t d x => exact relayTaken_recordWork u (elsewhere (gateArrival_records u t d x))
  | plain t d data => exact relayTaken_recordWork u (elsewhere (plainArrival_records u t d data))
  | run t => exact repliedActs_recordWork u (runRequest_recordWork u)
  | halt t => exact repliedActs_recordWork u (blocks (haltRequest_work u))
  | resume t => exact repliedActs_recordWork u (resumeRequest_recordWork u)
  | setConsoleLevel t l => exact replied_recordWork u (elsewhere (setConsoleLevel_records u l))
  | loadStation t a p k n c => exact replied_recordWork u (elsewhere (loadStation_records u a p k n c))
  | loadZone t z => exact replied_recordWork u (elsewhere (loadZone_records u z))
  | setZoneLimit t l => exact replied_recordWork u (elsewhere (setZoneLimit_records u l))
  | loadHead t h => exact replied_recordWork u (elsewhere (loadHead_records u h))
  | setTiming t a b c d => exact replied_recordWork u (elsewhere (setTiming_records u a b c d))
  | setLimits t n c d => exact replied_recordWork u (elsewhere (setLimits_records u n c d))
  | readStation t a => exact replied_recordWork u (elsewhere (congrArg records (readStation_state u a)))
  | readZone t i => exact replied_recordWork u (elsewhere (congrArg records (readZone_state u i)))
  | queryZone t i l => exact replied_recordWork u (elsewhere (congrArg records (queryZone_state u i l)))
  | readHead t i => exact replied_recordWork u (elsewhere (congrArg records (readHead_state u i)))
  | setFreeboard t h o => exact repliedActs_recordWork u (setFreeboard_recordWork u h o)
  | sampleNow t => exact repliedActs_recordWork u (blocks (sampleNow_work u))
  | ackTrip t i => exact repliedActs_recordWork u (blocks (ackTrip_work u i))
  | appendStep t f => exact repliedActs_recordWork u (blocks (appendStep_work u f))
  | cancelStep t n => exact repliedActs_recordWork u (blocks (cancelStep_work u n))
  | endStep t n => exact repliedActs_recordWork u (blocks (endStep_work u n))
  | purgeSteps t => exact repliedActs_recordWork u (purgeSteps_recordWork u)
  | readStep t n => exact replied_recordWork u (elsewhere (congrArg records (readStep_state u n)))
  | readPlan t i => exact replied_recordWork u (elsewhere (congrArg records (readPlan_state u i)))
  | trimPour t f => exact repliedActs_recordWork u (blocks (trimPour_work u f))
  | openBill t n => exact replied_recordWork u (openBill_recordWork u n)
  | closeBill t => exact replied_recordWork u (closeBill_recordWork u)
  | readBillOpen t n => exact replied_recordWork u (blocks (readBillOpen_work u n))
  | readBillNext t => exact replied_recordWork u (readBillNext_recordWork u)
  | readBillEnd t => exact repliedActs_recordWork u (blocks (readBillEnd_work u))
  | issueBill t n => exact replied_recordWork u (issueBill_recordWork u n)
  | nextNotice t => exact replied_recordWork u (elsewhere (nextNotice_records u))
  | clearNotices t n => exact replied_recordWork u (elsewhere (clearNotices_records u n))
  | setNoticeMask t n => exact replied_recordWork u (elsewhere (setNoticeMask_records u n))
  | _ => exact elsewhere rfl

theorem takeFrame_recordWork (f : Frame) : RecordWork u (takeFrame f u) := by
  unfold takeFrame
  split
  · exact elsewhere rfl
  · exact elsewhere rfl
  · exact carriedOut_recordWork u _

end

/-! ## Events that are no request -/

section
variable (s : State)

theorem discard_records (n : Word16) : records (discard n s) = records s := by
  unfold discard
  split <;> rfl

theorem receiveDamaged_records : records (receiveDamaged s) = records s := by
  rw [receiveDamaged_eq]
  split
  · rfl
  · split <;> rfl

theorem dropField_records : records (dropField s) = records s := by
  unfold dropField
  split <;> rfl

theorem startUpstream_records : records (startUpstream s) = records s := by
  unfold startUpstream
  split
  · rfl
  · split <;> rfl

theorem takeField_recordWork (f : Frame) : RecordWork s (takeField f s) := by
  have hears : RecordWork s (setFldRx .hunt s) := elsewhere rfl
  unfold takeField
  split
  · exact refl s
  · dsimp only
    split
    · exact hears.trans (blocks (matchAnswer_work _ f))
    · exact hears

theorem endUpstream_recordWork : RecordWork s (endUpstream s) := by
  unfold endUpstream
  split
  · dsimp only
    split
    · exact (restarts _).after rfl
    · exact elsewhere rfl
  · exact refl s

end

/-- Every command's work on the plan and the bills is a chain of those links. -/
theorem exec_recordWork {c : Instr} {s t : State} (h : exec c s = .next t) : RecordWork s t := by
  have request : ∀ d : Instr, RecordWork s (receive (carriedOut d) s) :=
    fun d => receive_recordWork s fun u => carriedOut_recordWork u d
  cases c with
  | powerOn clk baud => cases h; exact powersUp s clk baud
  | restartInput =>
    cases h
    split
    · exact refl s
    · exact (restarts s).trans (elsewhere rfl)
  | restartInputRelease | maintenanceKeyInactive | maintenanceKeyActive | clockMinute => cases h; exact elsewhere rfl
  | supervisorFrame f w =>
    cases h
    split
    · exact elsewhere (discard_records s 2)
    · split
      · exact receive_recordWork s fun u => takeFrame_recordWork u f
      · exact elsewhere (receiveDamaged_records s)
  | supervisorFrameLengthDiscard => cases h; exact elsewhere (discard_records s 2)
  | supervisorFrameTimeLimit =>
    cases h
    split
    · exact refl s
    · exact elsewhere (discard_records s 3)
  | upstreamFrameStart => cases h; exact elsewhere (startUpstream_records s)
  | upstreamFrameSent => cases h; exact endUpstream_recordWork s
  | plain tag dest data =>
    cases h
    split
    · exact request (.plain tag dest data)
    · exact elsewhere (discard_records s 2)
  | fieldFrameReceived f w =>
    cases h
    split
    · exact takeField_recordWork s f
    · exact elsewhere (dropField_records s)
  | fieldFrameLengthDiscard | fieldCheckWordMismatch => cases h; exact elsewhere (dropField_records s)
  | fieldFrameTimeLimit => cases h; exact elsewhere rfl
  | fieldFrameSent => cases h; exact blocks (fieldFrameEnd_work s)
  | replyTimeout => cases h; exact blocks (replyTimerEnd_work s)
  | positionTimerExpiry =>
    cases h
    split
    · exact refl s
    · exact (blocks ((positionPolls_work _).trans (arbitrate_work _))).after rfl
  | scaleTimerExpiry =>
    cases h
    split
    · exact refl s
    · exact (blocks ((scalePolls_work _).trans (arbitrate_work _))).after rfl
  | cycleTimerExpiry =>
    cases h
    split
    · exact refl s
    · exact blocks ((cycleExpiry_work s).trans (arbitrate_work _))
  | startByteReceived line =>
    cases h
    cases line with
    | supervisor => dsimp only; split <;> exact elsewhere rfl
    | field => dsimp only; split <;> exact elsewhere rfl
  | move a b m => cases h; exact request (.move a b m)
  | gate a b g => cases h; exact request (.gate a b g)
  | _ => rw [exec_request s rfl rfl] at h; cases h; exact request _

theorem step_recordWork {s t : State} (h : step s = .next t) : RecordWork s t := by
  unfold step at h
  split at h
  · exact (exec_recordWork h).after rfl
  · unfold idle at h
    split at h
    · cases h
      exact elsewhere rfl
    · exact exec_recordWork h
    · unfold chooseDue at h
      exact (exec_recordWork h).after rfl

/-! ## The plan's form -/

theorem PlanGood.of_records {s t : State} (same : records t = records s) (good : PlanGood s) : PlanGood t := by
  simp only [records, Prod.mk.injEq] at same
  obtain ⟨plan, counter, _⟩ := same
  exact good.of_eq plan counter

/-- Fewer records, each under a number it had, are in form. -/
theorem PlanGood.of_sublist {s t : State} (numbered : (numbers t).Sublist (numbers s))
    (counter : t.stepCounter = s.stepCounter) (good : PlanGood s) : PlanGood t := by
  refine ⟨?_, good.distinct.sublist numbered, fun r mem => ?_, ?_⟩
  · have fewer := numbered.length_le
    rw [numbers, numbers, List.length_map, List.length_map] at fewer
    exact fewer.trans good.size
  · obtain ⟨q, known, number⟩ := List.mem_map.mp (numbered.subset (List.mem_map_of_mem mem))
    exact number ▸ good.named q known
  · rw [counter]
    exact good.counter

theorem purge_numbers (s : State) : (numbers (purge s)).Sublist (numbers s) := by
  show ((List.map _ _).map StepRec.number).Sublist _
  rw [List.map_map]
  exact List.filter_sublist.map _

theorem restartedStep_number (r : StepRec) : (restartedStep r).number = r.number := by
  unfold restartedStep
  split <;> rfl

theorem restartAll_numbers (s : State) : numbers (restartAll s) = numbers s := by
  show (s.plan.map restartedStep).map StepRec.number = _
  rw [List.map_map]
  exact List.map_congr_left fun r _ => restartedStep_number r

theorem planGood_reset : PlanGood State.reset := by
  obtain ⟨_, _, _, _, _, plan, _⟩ := propertiesHoldAtReset
  exact plan

theorem RecordWork.planGood {s t : State} (w : RecordWork s t) (good : PlanGood s) : PlanGood t := by
  induction w with
  | trans _ _ first second => exact second (first good)
  | blocks w => exact w.planGood good
  | elsewhere same => exact good.of_records same
  | purges s => exact good.of_sublist (purge_numbers s) rfl
  | opensBill | putsClosed => exact good.of_eq rfl rfl
  | restarts s => exact PlanGood.of_sublist (s := s) (by rw [restartAll_numbers]) rfl good
  | powersUp => exact planGood_reset.of_eq rfl rfl

/-! ## The bill table's form -/

section
variable {s : State} {i : Fin 8} {c : Bill}

/-- A record put into a slot keeps the table in form where it is in form itself, its number is new and it is the only OPEN
one. -/
theorem setBill_good (total : c.total = c.sum) (named : c.number ≠ 0) (unclosed : c.state = .opened → c.closedAt = 0)
    (new : ∀ (j : Fin 8) (b : Bill), s.bills[j] = some b → b.number = c.number → j = i)
    (alone : c.state = .opened → ∀ (j : Fin 8) (b : Bill), s.bills[j] = some b → b.state = .opened → j = i)
    (good : BillsGood s) : BillsGood (setBill i c s) := by
  have slot : ∀ j b, (setBill i c s).bills[j] = some b → (j = i ∧ b = c) ∨ (j ≠ i ∧ s.bills[j] = some b) := by
    intro j b record
    rw [setBill_getElem] at record
    split at record
    · rename_i here
      exact .inl ⟨here, (Option.some.inj record).symm⟩
    · rename_i other
      exact .inr ⟨other, record⟩
  refine ⟨fun j b record => ?_, fun j b record => ?_, fun j b record isOpen => ?_,
    fun j k b d recordJ recordK same => ?_, fun j k b d recordJ recordK openJ openK => ?_⟩
  · obtain ⟨_, rfl⟩ | ⟨_, old⟩ := slot j b record
    · exact total
    · exact good.totals j b old
  · obtain ⟨_, rfl⟩ | ⟨_, old⟩ := slot j b record
    · exact named
    · exact good.named j b old
  · obtain ⟨_, rfl⟩ | ⟨_, old⟩ := slot j b record
    · exact unclosed isOpen
    · exact good.unclosed j b old isOpen
  · obtain ⟨rfl, rfl⟩ | ⟨otherJ, oldJ⟩ := slot j b recordJ
    · obtain ⟨rfl, rfl⟩ | ⟨otherK, oldK⟩ := slot k d recordK
      · rfl
      · exact absurd (new k d oldK same.symm) otherK
    · obtain ⟨rfl, rfl⟩ | ⟨otherK, oldK⟩ := slot k d recordK
      · exact absurd (new j b oldJ same) otherJ
      · exact good.distinct j k b d oldJ oldK same
  · obtain ⟨rfl, rfl⟩ | ⟨otherJ, oldJ⟩ := slot j b recordJ
    · obtain ⟨rfl, rfl⟩ | ⟨otherK, oldK⟩ := slot k d recordK
      · rfl
      · exact absurd (alone openJ k d oldK openK) otherK
    · obtain ⟨rfl, rfl⟩ | ⟨otherK, oldK⟩ := slot k d recordK
      · exact absurd (alone openK j b oldJ openJ) otherJ
      · exact good.oneOpen j k b d oldJ oldK openJ openK

theorem newBill_sum (n : Word16) (minutes : Word32) : (newBill n minutes).sum = 0 := rfl

theorem openBill_billsGood {n : Word16} (minutes : Word32) (noneOpen : openSlot s = none) (named : n ≠ 0)
    (new : findBill s n = none) (good : BillsGood s) : BillsGood (setBill i (newBill n minutes) s) := by
  refine setBill_good (newBill_sum n minutes).symm named (fun _ => rfl)
    (fun j b record same => absurd same (findBill_none new record))
    (fun _ j b record isOpen => absurd isOpen (openSlot_none noneOpen record)) good

theorem putClosed_billsGood {b : Bill} (record : s.bills[i] = some b) (closed : b.ClosedAs c) (good : BillsGood s) :
    BillsGood (setBill i c s) := by
  have total : c.total = c.sum := by
    rw [closed.total, good.totals i b record, Bill.sum, Bill.sum, closed.holds, closed.unplaced]
  exact setBill_good total (closed.number ▸ good.named i b record) (fun isOpen => absurd isOpen closed.state)
    (fun j d other same => good.distinct j i d b other record (same.trans closed.number))
    (fun isOpen => absurd isOpen closed.state) good

/-- The record of a slot through a restart (R173): the OPEN one has its counts changed, any other stays. -/
theorem restartAll_bill (s : State) (i : Fin 8) : (restartAll s).bills[i] = (s.bills[i]).map fun b =>
    if b.state = .opened then restartBill (s.plan.countP doneAtRestart) b else b := by
  show (restartBills _ s.bills)[i] = _
  rw [restartBills, mapTable_getElem]

end

/-- Records whose numbers, amounts, times and states are those of the same slot are in form. -/
theorem BillsGood.of_slots {s t : State}
    (slots : ∀ (i : Fin 8) (c : Bill), t.bills[i] = some c → ∃ b, s.bills[i] = some b ∧
      c.number = b.number ∧ c.state = b.state ∧ c.closedAt = b.closedAt ∧ c.total = b.total ∧ c.sum = b.sum)
    (good : BillsGood s) : BillsGood t := by
  refine ⟨fun i c record => ?_, fun i c record => ?_, fun i c record isOpen => ?_,
    fun i j c d recordC recordD same => ?_, fun i j c d recordC recordD openC openD => ?_⟩
  · obtain ⟨b, old, _, _, _, total, sum⟩ := slots i c record
    rw [total, sum]
    exact good.totals i b old
  · obtain ⟨b, old, number, _⟩ := slots i c record
    rw [number]
    exact good.named i b old
  · obtain ⟨b, old, _, state, closedAt, _⟩ := slots i c record
    rw [closedAt]
    exact good.unclosed i b old (state ▸ isOpen)
  · obtain ⟨b, oldB, numberB, _⟩ := slots i c recordC
    obtain ⟨e, oldE, numberE, _⟩ := slots j d recordD
    exact good.distinct i j b e oldB oldE (numberB ▸ numberE ▸ same)
  · obtain ⟨b, oldB, _, stateB, _⟩ := slots i c recordC
    obtain ⟨e, oldE, _, stateE, _⟩ := slots j d recordD
    exact good.oneOpen i j b e oldB oldE (stateB ▸ openC) (stateE ▸ openD)

theorem restartAll_billsGood {s : State} (good : BillsGood s) : BillsGood (restartAll s) := by
  refine good.of_slots fun i c record => ?_
  rw [restartAll_bill] at record
  obtain ⟨b, old, rfl⟩ := Option.map_eq_some_iff.mp record
  refine ⟨b, old, ?_⟩
  split <;> exact ⟨rfl, rfl, rfl, rfl, rfl⟩

theorem RecordWork.billsGood {s t : State} (w : RecordWork s t) (good : BillsGood s) : BillsGood t := by
  induction w with
  | trans _ _ first second => exact second (first good)
  | blocks w => exact w.billsGood good
  | elsewhere same =>
    simp only [records, Prod.mk.injEq] at same
    obtain ⟨_, _, bills⟩ := same
    exact good.of_eq bills
  | purges s => exact good.of_eq rfl
  | opensBill i minutes noneOpen named new => exact openBill_billsGood minutes noneOpen named new good
  | putsClosed record closed => exact putClosed_billsGood record closed good
  | restarts s => exact restartAll_billsGood good
  | powersUp => exact billsGood_reset.of_eq rfl

/-- Settles O60: a step's work on the plan and the bills, link by link. -/
theorem planAndBillsKept : Obligations.PlanAndBillsKept := fun _ _ h =>
  ⟨(step_recordWork h).planGood, (step_recordWork h).billsGood⟩

end Sys2Proof.Machine
end

section
/-! The plan and the bill table through a restart (R142, R165, R173). -/

namespace Sys2Proof.Machine

/-! ## A step record -/

/-- ACTIVE, HELD and SUSPENDED steps, which a restart ends or makes WAITING (R142). -/
def StepRec.AtWork (r : StepRec) : Prop := r.state = .active ∨ r.state = .held ∨ r.state = .suspended

section
variable {r : StepRec}

theorem atWork_iff (r : StepRec) : (r.pouring || r.state == .suspended) = true ↔ r.AtWork := by
  rw [StepRec.pouring, Bool.or_eq_true, Bool.or_eq_true, beq_iff_eq, beq_iff_eq, beq_iff_eq, or_assoc, StepRec.AtWork]

theorem doneAtRestart_iff (r : StepRec) : doneAtRestart r = true ↔ r.AtWork ∧ Filled r := by
  rw [doneAtRestart, Bool.and_eq_true, atWork_iff, filled_iff]

theorem restartedStep_eq (r : StepRec) :
    restartedStep r = { r with inTopOff := false, state := (restartedStep r).state } := by
  unfold restartedStep
  split <;> rfl

theorem restartStep_atWork (work : r.AtWork) : (restartStep r).state = .waiting := by
  refine if_pos ?_
  rw [← beq_iff_eq (a := r.state), ← Bool.or_eq_true]
  exact (atWork_iff r).mpr work

theorem restartStep_idle (idle : ¬ r.AtWork) : (restartStep r).state = r.state := by
  refine if_neg ?_
  rw [← beq_iff_eq (a := r.state), ← Bool.or_eq_true]
  exact mt (atWork_iff r).mp idle

theorem restartedStep_filled (work : r.AtWork) (filled : Filled r) : (restartedStep r).state = .done := by
  rw [restartedStep, if_pos ((doneAtRestart_iff r).mpr ⟨work, filled⟩)]

theorem restartedStep_short (work : r.AtWork) (short : ¬ Filled r) : (restartedStep r).state = .waiting := by
  rw [restartedStep, if_neg fun done => short ((doneAtRestart_iff r).mp done).2]
  exact restartStep_atWork work

theorem restartedStep_idle (idle : ¬ r.AtWork) : (restartedStep r).state = r.state := by
  rw [restartedStep, if_neg fun done => idle ((doneAtRestart_iff r).mp done).1]
  exact restartStep_idle idle

end

/-! ## The OPEN bill's counts -/

theorem satInc_toNat (w : Word16) : (satInc w).toNat = min 65535 (w.toNat + 1) := by
  have bound := w.isLt
  unfold satInc
  split
  · rename_i top
    subst top
    rfl
  · rename_i below
    have short : w.toNat ≠ 65535 := fun top => below (BitVec.eq_of_toNat_eq top)
    rw [BitVec.toNat_add]
    simp only [BitVec.toNat_ofNat]
    omega

theorem satIncBy_toNat (n : Nat) (w : Word16) : (satIncBy n w).toNat = min 65535 (w.toNat + n) := by
  induction n generalizing w with
  | zero =>
    have bound := w.isLt
    show w.toNat = _
    omega
  | succ n ih =>
    rw [satIncBy, ih, satInc_toNat]
    omega

/-- Settles O13: the restart writes the plan record by record and the table slot by slot. -/
theorem restartOfPlanAndBills : Obligations.RestartOfPlanAndBills := by
  unfold Obligations.RestartOfPlanAndBills
  intro s t released run
  cases (restartInput_released released).symm.trans run
  refine ⟨?_, fun i => ?_⟩
  · show List.Forall₂ _ s.plan (s.plan.map restartedStep)
    rw [List.forall₂_map_right_iff, List.forall₂_same]
    exact fun r _ => ⟨⟨_, restartedStep_eq r⟩, fun work => ⟨restartedStep_filled work, restartedStep_short work⟩,
      restartedStep_idle⟩
  · have slot : ((restartAll s).withPins { s.pins with restartAsserted := true }).bills[i] = _ := restartAll_bill s i
    rw [slot]
    refine ⟨fun empty => by rw [empty]; rfl, fun b record => ?_⟩
    rw [record, Option.map_some]
    refine ⟨fun left => by rw [if_neg left], fun isOpen => ⟨_, _, by rw [if_pos isOpen]; rfl, satInc_toNat _, ?_⟩⟩
    rw [satIncBy_toNat]
    have counted : doneAtRestart = fun r : StepRec => (r.state == .active || r.state == .held || r.state == .suspended) &&
        r.mode == .count && decide (r.effTarget ≤ r.poured.toNat) := funext fun r => (Bool.and_assoc _ _ _).symm
    rw [counted]

end Sys2Proof.Machine
end

section
/-! CANCEL_STEP and END_STEP, the end of a step, the pops of a TRIM step's end and the service of latches (R134, R138, R139,
R145, R146, R148, R149). -/

namespace Sys2Proof.Machine

/-! ## The two requests -/

theorem findStep_none {s : State} {n : Word16} (absent : n ∉ numbers s) : findStep s n = none :=
  Option.not_isSome_iff_eq_none.mp (mt findStep_isSome.mp absent)

/-- A step's record and its gate at its end, before the notice and the pops (R134 steps 1 and 2, R138 step 1). -/
def endedRecord (r : StepRec) (x : StepState) (s : State) : State :=
  (s.withPlan (planWith r.number (fun q => { q with state := x }) s)).withOrders
    (if r.state = .active then closedOrders r.spout s else s.orders)

/-- The close of a gate at the end or the push of an ACTIVE step (R134, R146). -/
theorem closeIfActive_eq (r : StepRec) (sp : Spout) (s : State) :
    (if r.state = .active then closeUnlessClosed sp s else s) =
      s.withOrders (if r.state = .active then closedOrders sp s else s.orders) := by
  split
  · exact closeUnlessClosed_eq sp s
  · rfl

theorem cancelRecord_eq (r : StepRec) (s : State) : cancelRecord r s = activationTest (stepEnded r .cancelled s) := by
  unfold cancelRecord
  dsimp only
  rw [closeIfActive_eq]
  rfl

theorem pouring_iff (r : StepRec) : r.pouring = true ↔ r.state = .active ∨ r.state = .held := by
  rw [StepRec.pouring, Bool.or_eq_true, beq_iff_eq, beq_iff_eq]

section
variable {s : State} {n : Word16}

theorem cancelStep_absent (absent : n ∉ numbers s) : cancelStep n s = Reply.refuse .noSuchStep s := by
  rw [cancelStep, findStep_none absent]

theorem endStep_absent (absent : n ∉ numbers s) : endStep n s = Reply.refuse .noSuchStep s := by
  rw [endStep, findStep_none absent]

variable {r : StepRec} (found : findStep s n = some r)
include found

theorem cancelStep_suspended (suspended : r.state = .suspended) : cancelStep n s = Reply.refuse .stepSuspended s := by
  rw [cancelStep, found]
  exact if_pos suspended

theorem cancelStep_ended (ended : r.state = .done ∨ r.state = .cancelled) :
    cancelStep n s = Reply.refuse .stepEnded s := by
  have notSuspended : r.state ≠ .suspended := by
    obtain state | state := ended <;> rw [state] <;> decide
  have finished : r.finished = true := by
    rw [StepRec.finished, Bool.or_eq_true, beq_iff_eq, beq_iff_eq]
    exact ended
  rw [cancelStep, found]
  exact (if_neg notSuspended).trans (if_pos finished)

theorem cancelStep_cancels (going : r.state = .waiting ∨ r.state = .active ∨ r.state = .held) :
    cancelStep n s = Reply.ok [] (activationTest (stepEnded r .cancelled s)) := by
  have notSuspended : r.state ≠ .suspended := by
    obtain state | state | state := going <;> rw [state] <;> decide
  have unfinished : ¬ r.finished = true := by
    rw [StepRec.finished]
    obtain state | state | state := going <;> rw [state] <;> decide
  rw [cancelStep, found, ← cancelRecord_eq]
  exact (if_neg notSuspended).trans (if_neg unfinished)

theorem endStep_idle (notActive : r.state ≠ .active) (notHeld : r.state ≠ .held) :
    endStep n s = Reply.refuse .notActive s := by
  rw [endStep, found]
  exact if_neg fun pours => ((pouring_iff r).mp pours).elim notActive notHeld

theorem endStep_ends (pours : r.state = .active ∨ r.state = .held) :
    endStep n s = Reply.ok [] (activationTest (stepEnded r .done s)) := by
  rw [endStep, found, ← enterDone_eq]
  exact if_pos ((pouring_iff r).mpr pours)

end

/-- A taken request that is carried out with the activation test at its end. -/
theorem exec_tested {c : Instr} {tag : Byte} {s : State} {op : State → Reply} {data : List Byte} {t : State}
    (taken : Taken s) (run : exec c s = .next (receive (repliedActs tag op) s))
    (h : op (heard s) = Reply.ok data (activationTest t)) :
    exec c s = .next (arbitrate (testedReply tag .done data t)) := by
  rw [run, receive_taken taken, repliedActs, replied_ok h]
  rfl

/-! ## The end of a PLAN step -/

section
variable {n : Word16} {s : State}

theorem doneTold_closed (closed : openSlot s = none) : doneTold n s = setNotice .stepDone n s := by
  rw [doneTold, closed]

theorem doneTold_counts {i : Fin 8} {b : Bill} (slot : openSlot s = some i) (record : s.bills[i] = some b) :
    doneTold n s = (setNotice .stepDone n s).withBills (s.bills.set i.val (some { b with steps := satInc b.steps })) := by
  rw [doneTold, slot]
  dsimp only
  rw [record]

/-- What is told at DONE writes the notice and the bill table alone. -/
theorem doneTold_writes (n : Word16) (s : State) : ∃ bills, doneTold n s = (setNotice .stepDone n s).withBills bills := by
  cases slot : openSlot s with
  | none => exact ⟨_, doneTold_closed slot⟩
  | some i =>
    obtain ⟨b, record, _⟩ := openSlot_some slot
    exact ⟨_, doneTold_counts slot record⟩

theorem doneTold_stack (n : Word16) (s : State) : (doneTold n s).stack = s.stack := by
  obtain ⟨bills, writes⟩ := doneTold_writes n s
  rw [writes]
  rfl

theorem setNotice_subject (x : Notice) (v : Word16) (s : State) : (setNotice x v s).notices.subjects[x.ix] = v :=
  congrArg Prod.snd ((setNotice_at x x.ix v s).trans (if_pos rfl))

variable {r : StepRec} (plan : r.kind = .plan)
include plan

theorem stepEnded_cancelled : stepEnded r .cancelled s = endedRecord r .cancelled s :=
  if_neg (by rw [plan]; decide)

theorem stepEnded_done : stepEnded r .done s = doneTold r.number (endedRecord r .done s) :=
  if_neg (by rw [plan]; decide)

/-- A PLAN step at DONE but for the bill table. -/
theorem stepEnded_done_writes : ∃ bills, stepEnded r .done s =
    (setNotice .stepDone r.number (endedRecord r .done s)).withBills bills := by
  rw [stepEnded_done plan]
  exact doneTold_writes _ _

theorem stepEnded_done_closed (closed : openSlot s = none) : (stepEnded r .done s).bills = s.bills := by
  rw [stepEnded_done plan, doneTold_closed (s := endedRecord r .done s) closed]
  rfl

theorem stepEnded_done_counts {i : Fin 8} {b : Bill} (slot : openSlot s = some i) (record : s.bills[i] = some b) :
    (stepEnded r .done s).bills = s.bills.set i.val (some { b with steps := satInc b.steps }) := by
  rw [stepEnded_done plan, doneTold_counts (s := endedRecord r .done s) slot record]
  rfl

end

/-! ## The pops (R148) -/

/-- How many entries a spout's stack holds, its fourth in the shared level (R143). -/
def stackDepth (sp : Spout) (x : StackUnit) : Nat :=
  (x.levels.get sp).length + match x.shared with
    | .entry q _ => if q = sp then 1 else 0
    | _ => 0

section
variable {s : State} {sp : Spout} {e : StackEntry}

theorem stackDepth_le (levels : (s.stack.levels.get sp).length ≤ 3) : stackDepth sp s.stack ≤ 4 := by
  unfold stackDepth
  split
  · split <;> omega
  · exact levels.trans (Nat.le_succ 3)

theorem depth_head? {l : List StackEntry} (h : l.head? = some e) : l.tail.length < l.length := by
  cases l with
  | nil => cases h
  | cons a l => exact Nat.lt_succ_self _

/-- A top entry is counted, and dropping it lowers the count. -/
theorem dropTop_depth (top : topEntry s sp = some e) : stackDepth sp (dropTop sp s).stack < stackDepth sp s.stack := by
  cases shared : s.stack.shared with
  | entry q x =>
    by_cases own : q = sp
    · simp [stackDepth, dropTop, shared, own]
    · have newest : (s.stack.levels.get sp).head? = some e := by simpa [topEntry, shared, own] using top
      simpa [stackDepth, dropTop, shared, own] using depth_head? newest
  | empty | cursor =>
    have newest : (s.stack.levels.get sp).head? = some e := by simpa [topEntry, shared] using top
    simpa [stackDepth, dropTop, shared] using depth_head? newest

theorem returned_eq (e : StackEntry) (sp : Spout) (s : State) :
    setStepState e.suspended .waiting (dropTop sp s) = returned e sp s := by
  unfold setStepState updateStep returned planWith
  rw [dropTop_plan]

theorem returnedDone_eq (e : StackEntry) (sp : Spout) (s : State) :
    markDone e.suspended (returned e sp s) = returnedDone e sp s := doneTold_eq _ _

theorem returnedDone_stack (e : StackEntry) (sp : Spout) (s : State) :
    (returnedDone e sp s).stack = (dropTop sp s).stack := by
  simp only [returnedDone, doneTold_stack, returned, State.withPlan_fields]

end

/-- With as much fuel as entries, the cascade runs to its end. -/
theorem popCascade_pops (sp : Spout) (fuel : Nat) (n : Word16) (s : State) (enough : stackDepth sp s.stack ≤ fuel) :
    Pops sp n s (popCascade sp fuel n s) := by
  induction fuel generalizing n s with
  | zero =>
    refine .stop fun e top => ?_
    have counted := dropTop_depth top
    omega
  | succ fuel ih =>
    unfold popCascade
    split
    · rename_i empty
      exact .stop fun e top => nomatch empty.symm.trans top
    · rename_i e top
      split
      · rename_i own
        dsimp only
        rw [returned_eq]
        split
        · rename_i gone
          exact .waits top own fun r found => nomatch gone.symm.trans found
        · rename_i r found
          split
          · rename_i complete
            have filled := (filled_iff r).mp complete
            rw [findStep_number found, returnedDone_eq]
            split
            · rename_i trim
              refine .on top own found filled trim (ih _ _ ?_)
              have fewer := dropTop_depth top
              rw [returnedDone_stack]
              omega
            · rename_i plan
              refine .ends top own found filled ?_
              cases kind : r.kind with
              | plan => rfl
              | trim => exact absurd kind plan
          · rename_i short
            refine .waits top own fun q foundQ => ?_
            obtain rfl := Option.some.inj (found.symm.trans foundQ)
            exact mt (filled_iff r).mpr short
      · rename_i other
        refine .stop fun x topX => ?_
        obtain rfl := Option.some.inj (top.symm.trans topX)
        exact other

/-- After the pops the freed private level, then the freed shared level, is offered to the latches (R148, R149). -/
theorem trimEnded_eq (sp : Spout) (n : Word16) (s : State) :
    let p := popCascade sp 4 n s
    let v := if (p.stack.levels.get sp).length < (s.stack.levels.get sp).length then serveLatch sp p else p
    trimEnded sp n s = if s.stack.shared ≠ .empty ∧ p.stack.shared = .empty then serveShared v else v :=
  if_congr and_comm rfl rfl

/-! ## The service of a latch (R146, R149) -/

section
variable {s : State} {sp : Spout}

theorem clearLatch_eq (sp : Spout) (s : State) : clearLatch sp s = s.withStack (latchCleared sp s.stack) := by
  unfold clearLatch latchCleared
  cases s.stack.latches.get (otherSpout sp) <;> rfl

theorem insertBefore_split {n : Word16} {r : StepRec} (x : StepRec) {before : List StepRec} (after : List StepRec)
    (number : r.number = n) (others : ∀ q ∈ before, q.number ≠ n) :
    insertBefore n x (before ++ r :: after) = before ++ x :: r :: after := by
  induction before with
  | nil => exact if_pos number
  | cons q before ih =>
    rw [List.cons_append, insertBefore, if_neg (others q List.mem_cons_self),
      ih fun p mem => others p (List.mem_cons_of_mem _ mem)]
    rfl

theorem planWith_numbers {f : StepRec → StepRec} (sameNumber : ∀ r, (f r).number = r.number) (n : Word16) (s : State) :
    (planWith n f s).map (·.number) = numbers s := by
  unfold planWith numbers
  rw [List.map_map]
  refine List.map_congr_left fun r _ => ?_
  show (if r.number = n then f r else r).number = r.number
  split
  · exact sameNumber r
  · rfl

/-- The next number is read from the plan's numbers and the counter. -/
theorem nextNumber_of_same {t : State} (same : numbers t = numbers s) (counter : t.stepCounter = s.stepCounter) :
    nextNumber t = nextNumber s := by
  have length : t.plan.length = s.plan.length := by
    have lengths := congrArg List.length same
    rwa [numbers, numbers, List.length_map, List.length_map] at lengths
  unfold numbers at same
  rw [nextNumber, nextNumber, same, counter, length]

/-- The stack a push leaves (R143, R146). -/
theorem pushEntry_eq (sp : Spout) (e : StackEntry) (s : State) : pushEntry sp e s = s.withStack
    (if (s.stack.levels.get sp).length < 3 then
      { s.stack with levels := s.stack.levels.set sp (e :: s.stack.levels.get sp) }
    else { s.stack with shared := .entry sp e }) := by
  unfold pushEntry
  exact (apply_ite s.withStack _ _ _).symm

/-- A TRIM record takes its place before the step that was set aside (R146). -/
theorem joinPlan_suspended (r : StepRec) (req : TrimRequest) (sp : Spout) (s : State) (stack : StackUnit)
    (orders : List Order) :
    let aside := planWith r.number (fun q => { q with state := .suspended }) s
    joinPlan (trimRecord sp req) (insertBefore r.number) (((s.withStack stack).withPlan aside).withOrders orders) =
      (((s.withPlan (insertBefore r.number (trimRecord sp req (nextNumber s)) aside)).withStepCounter
        (advance (nextNumber s))).withOrders orders).withStack stack := by
  intro aside
  have same : nextNumber (((s.withStack stack).withPlan aside).withOrders orders) = nextNumber s :=
    nextNumber_of_same (planWith_numbers (f := fun q => { q with state := .suspended }) (fun _ => rfl) _ _) rfl
  rw [joinPlan, same]
  rfl

theorem pushRunning_eq (sp : Spout) (r : StepRec) (req : TrimRequest) (s : State) :
    pushRunning sp r req s = trimPushed sp r req s := by
  unfold pushRunning
  dsimp only
  rw [pushEntry_eq, closeIfActive_eq]
  exact joinPlan_suspended r req sp s _ _

/-- What the push of the running step does to the plan, record by record (R145, R146). -/
theorem trimPushed_plan {r : StepRec} {req : TrimRequest} {before after : List StepRec}
    (plan : s.plan = before ++ r :: after) (first : ∀ q ∈ before, q.number ≠ r.number) :
    let aside := fun l => planWith r.number (fun q => { q with state := .suspended }) (s.withPlan l)
    (trimPushed sp r req s).plan = aside before ++ trimRecord sp req (nextNumber s) :: aside (r :: after) := by
  intro aside
  have split : planWith r.number (fun q => { q with state := .suspended }) s = aside before ++ aside (r :: after) := by
    rw [planWith, plan]
    exact List.map_append
  have pushed : aside (r :: after) = { r with state := .suspended } :: aside after :=
    congrArg (· :: aside after) (if_pos rfl)
  show insertBefore r.number _ (planWith r.number _ s) = _
  rw [split, pushed]
  refine insertBefore_split _ _ rfl fun q mem => ?_
  obtain ⟨p, known, rfl⟩ := List.mem_map.mp mem
  rw [if_neg (first p known)]
  exact first p known

theorem serveLatch_clear (clear : s.stack.latches.get sp = none) : serveLatch sp s = s := by
  rw [serveLatch, clear]

variable {req : TrimRequest} (latched : s.stack.latches.get sp = some req)
include latched

theorem serveLatch_full (full : 32 ≤ s.plan.length) :
    serveLatch sp s = setNotice .trimTaken 0 (s.withStack (latchCleared sp s.stack)) := by
  rw [serveLatch, latched, ← clearLatch_eq]
  exact if_pos full

section
variable (room : s.plan.length < 32)
include room

theorem serveLatch_tail (idle : runningStep s sp = none) : serveLatch sp s = setNotice .trimTaken (nextNumber s)
    ((createTrimAtTail sp req s).withStack (latchCleared sp s.stack)) := by
  have notFull : ¬ Config.planRecords ≤ s.plan.length := Nat.not_le.mpr room
  rw [serveLatch, latched]
  dsimp only
  rw [if_neg notFull, idle, clearLatch_eq]
  rfl

theorem serveLatch_push {r : StepRec} (running : runningStep s sp = some r) :
    serveLatch sp s = setNotice .trimTaken (nextNumber s)
      ((trimPushed sp r req s).withStack (latchCleared sp (trimPushed sp r req s).stack)) := by
  have notFull : ¬ Config.planRecords ≤ s.plan.length := Nat.not_le.mpr room
  rw [serveLatch, latched]
  dsimp only
  rw [if_neg notFull, running, clearLatch_eq]
  dsimp only
  rw [pushRunning_eq]

end

end

/-! ## The service of the shared level (R149) -/

section
variable {s : State}

theorem serveShared_idle (idle : s.stack.shared ≠ .empty ∨ s.stack.older = none) : serveShared s = s := by
  unfold serveShared
  split
  · rename_i sp shared older
    exact idle.elim (fun taken => absurd shared taken) fun none => nomatch older.symm.trans none
  · rfl

theorem serveShared_serves {sp : Spout} (shared : s.stack.shared = .empty) (older : s.stack.older = some sp) :
    serveShared s =
      if (serveLatch sp s).stack.shared = .empty then serveLatch (otherSpout sp) (serveLatch sp s) else serveLatch sp s := by
  rw [serveShared, shared, older]

end

/-- Settles O48: the requests by the step's state, the end of a PLAN step, the pops of a TRIM step's end, and the service of a
latch and of the shared level. -/
theorem cancelAndEndStep : Obligations.CancelAndEndStep := by
  unfold Obligations.CancelAndEndStep
  refine ⟨fun tag n s taken => ⟨fun absent => ?_, fun r found => ?_⟩, fun s r plan => ?_, fun s sp n levels => ?_,
    fun s sp => ⟨serveLatch_clear, fun req latched => ?_⟩, fun s => ⟨serveShared_idle, fun sp => serveShared_serves⟩⟩
  case refine_1 =>
    exact ⟨exec_acts_unchanged taken rfl (cancelStep_absent (s := heard s) absent),
      exec_acts_unchanged taken rfl (endStep_absent (s := heard s) absent)⟩
  case refine_2 =>
    have heardStep : findStep (heard s) n = some r := found
    exact ⟨fun suspended => exec_acts_unchanged taken rfl (cancelStep_suspended heardStep suspended),
      fun ended => exec_acts_unchanged taken rfl (cancelStep_ended heardStep ended),
      fun notActive notHeld => exec_acts_unchanged taken rfl (endStep_idle heardStep notActive notHeld),
      fun going => exec_tested taken rfl (cancelStep_cancels heardStep going),
      fun pours => exec_tested taken rfl (endStep_ends heardStep pours)⟩
  case refine_3 =>
    obtain ⟨bills, writes⟩ := stepEnded_done_writes (s := s) plan
    refine ⟨stepEnded_cancelled plan, ?_, ?_, ?_, ?_, stepEnded_done_closed plan,
      fun i b => stepEnded_done_counts plan, ?_, ?_, ?_, ?_, ?_, ?_⟩
    case refine_3 => rw [writes]; exact setNotice_flag .stepDone r.number _
    case refine_4 => rw [writes]; exact setNotice_subject .stepDone r.number _
    all_goals rw [writes]; rfl
  case refine_4 =>
    exact ⟨_, popCascade_pops sp 4 n s (stackDepth_le levels), trimEnded_eq sp n s⟩
  case refine_5 =>
    exact ⟨nextNumber_counter, rfl, serveLatch_full latched, serveLatch_tail latched,
      fun r room running => ⟨serveLatch_push latched room running, fun before after => trimPushed_plan⟩⟩

end Sys2Proof.Machine
end

section
/-! PURGE_STEPS, READ_STEP and READ_PLAN (R124, R125, R140). -/

namespace Sys2Proof.Machine

/-- A taken request that leaves the state alone: its REPLY. -/
theorem exec_replied_unchanged {c : Instr} {tag : Byte} {s : State} {op : State → Reply} {code : Code}
    {data : List Byte} (taken : Taken s) (run : exec c s = .next (receive (replied tag op) s))
    (h : op (heard s) = { code := code, data := data, state := heard s }) :
    exec c s = .next (replyTo tag code data s) := by
  rw [run, receive_taken taken, replied, h]
  rfl

/-! ## PURGE_STEPS (R140) -/

/-- A number names a record that PURGE_STEPS removes. -/
def Gone (s : State) (n : Word16) : Prop := ∃ r ∈ s.plan, r.finished = true ∧ r.number = n

section
variable {s : State} {n : Word16}

theorem purged_iff : purged s n = true ↔ Gone s n := by
  simp only [purged, List.any_eq_true, Bool.and_eq_true, beq_iff_eq, Gone, and_comm]

theorem keepUnpurged_gone (gone : Gone s n) : keepUnpurged s (some n) = none := by
  rw [keepUnpurged, Option.filter_some, purged_iff.mpr gone]
  rfl

theorem keepUnpurged_stays (stays : ¬ Gone s n) : keepUnpurged s (some n) = some n := by
  rw [keepUnpurged, Option.filter_some, Bool.eq_false_iff.mpr (mt purged_iff.mp stays)]
  rfl

end

/-- A reference to a step through PURGE_STEPS. -/
theorem keepUnpurged_cases (s : State) {o : Option Word16} : (o = none → keepUnpurged s o = none) ∧
    ∀ n, o = some n → (Gone s n → keepUnpurged s o = none) ∧ (¬ Gone s n → keepUnpurged s o = some n) := by
  refine ⟨?_, ?_⟩
  · rintro rfl
    rfl
  · rintro n rfl
    exact ⟨keepUnpurged_gone, keepUnpurged_stays⟩

theorem purge_account (s : State) (sp : Spout) : (purge s).account.get sp = keepUnpurged s (s.account.get sp) := by
  cases sp <;> rfl

/-! ## READ_STEP (R124) -/

section
variable {s : State} {n : Word16}

theorem readStep_absent (absent : n ∉ numbers s) : readStep n s = Reply.refuse .noSuchStep s := by
  rw [readStep, findStep_none absent]

variable {r : StepRec} (found : findStep s n = some r)
include found

/-- The position READ_STEP shows is that of the first record of the number. -/
theorem findIdx_first : s.plan[s.plan.findIdx fun x => x.number == n]? = some r ∧
    ∀ k, k < (s.plan.findIdx fun x => x.number == n) → (s.plan[k]?).map (·.number) ≠ some n := by
  refine ⟨List.find?_eq_getElem?_findIdx.symm.trans found, fun k before named => ?_⟩
  obtain ⟨q, here, number⟩ := Option.map_eq_some_iff.mp named
  obtain ⟨inside, rfl⟩ := List.getElem?_eq_some_iff.mp here
  have other := List.not_of_lt_findIdx before
  exact Bool.false_ne_true (other.symm.trans (beq_iff_eq.mpr number))

theorem readStep_shows : readStep n s = Reply.ok (bytes16 n ++ [r.kind.byte, r.spout.byte, holdByte r.hold, r.mode.byte]
    ++ bytes16 r.target ++ [settingByte r.gateSetting] ++ bytes16 r.topOffThreshold
    ++ [settingByte r.topOffSetting, r.openBy.byte] ++ bytes16 (r.after.getD 0) ++ bytes32 r.poured
    ++ [yesNo r.inTopOff, r.state.byte, byteOfNat (s.plan.findIdx fun x => x.number == n),
        yesNo (decide ((runningStep s r.spout).map (·.number) = some n)),
        yesNo (decide (s.account.get r.spout = some n))]) s := by
  rw [readStep, found]
  dsimp only
  rw [stepData, isRunning, findStep_number found, beq_eq_decide, beq_eq_decide]

end

/-- Settles O49: what the purge keeps of each reference, and READ_STEP by the number's record. -/
theorem purgeAndReadStep : Obligations.PurgeAndReadStep := by
  unfold Obligations.PurgeAndReadStep
  refine ⟨fun tag s taken => ?_, fun tag n s taken => ⟨fun absent => ?_, fun r found => ?_⟩⟩
  case refine_1 =>
    refine ⟨(purge s).plan, (purge s).account, exec_tested taken rfl rfl, ?_, fun sp => ?_⟩
    · refine List.forall₂_map_right_iff.mpr (List.forall₂_same.mpr fun r _ => ?_)
      exact ⟨rfl, keepUnpurged_cases s⟩
    · rw [purge_account]
      exact keepUnpurged_cases s
  case refine_2 => exact exec_replied_unchanged taken rfl (readStep_absent (s := heard s) absent)
  case refine_3 =>
    exact ⟨_, findIdx_first found, exec_replied_unchanged taken rfl (readStep_shows (s := heard s) found)⟩

/-! ## READ_PLAN (R125) -/

/-- Settles O50: READ_PLAN's three answers. -/
theorem readPlan_lists : Obligations.ReadPlan := by
  unfold Obligations.ReadPlan
  intro tag start s taken
  have reads : ∀ {code data}, readPlan start (heard s) = { code := code, data := data, state := heard s } →
      exec (.readPlan tag start) s = .next (replyTo tag code data s) := exec_replied_unchanged taken rfl
  by_cases large : 31 < start.toNat
  · rw [if_pos large]
    exact reads (if_pos large)
  · rw [if_neg large]
    by_cases past : s.plan.length ≤ start.toNat
    · rw [if_pos past]
      exact reads ((if_neg large).trans (if_pos past))
    · rw [if_neg past]
      exact reads ((if_neg large).trans (if_neg past))

end Sys2Proof.Machine
end

section
/-! TRIM_POUR: its checks, the TRIM step at the tail, the push of the running step, the latch (R143 to R147). -/

namespace Sys2Proof.Machine

/-! ## The fields of a trim pour in range (R144 check 1) -/

/-- The fields of a TRIM_POUR are in range. -/
def TrimFieldsGood (f : TrimFields) : Prop :=
  f.spout.toNat ≤ 1 ∧ (1 ≤ f.hold.toNat ∧ f.hold.toNat ≤ 9) ∧
    (1 ≤ f.gateSetting.toNat ∧ f.gateSetting.toNat ≤ 31) ∧ f.openBy.toNat ≤ 1

/-- The spout and the stored trim pour that those fields name. -/
def TrimOf (f : TrimFields) (sp : Spout) (req : TrimRequest) : Prop :=
  sp.byte = f.spout ∧ holdByte req.hold = f.hold ∧ req.target = f.target ∧
    settingByte req.gateSetting = f.gateSetting ∧ req.openBy.byte = f.openBy

section
variable {f : TrimFields}

theorem trimFieldsGood_of_some {trim : Spout × TrimRequest} (h : trimOfFields f = some trim) : TrimFieldsGood f := by
  unfold trimOfFields at h
  split at h
  · rename_i sp hold gate openBy hsp hhold hgate hopen
    exact ⟨spoutOfByte_range hsp, holdOfByte_range hhold, pourSetting_range hgate, openByOfByte_range hopen⟩
  · cases h

theorem trimOfFields_none (bad : ¬ TrimFieldsGood f) : trimOfFields f = none :=
  Option.eq_none_iff_forall_ne_some.mpr fun _ h => bad (trimFieldsGood_of_some h)

theorem trimOfFields_some (good : TrimFieldsGood f) : ∃ sp req, trimOfFields f = some (sp, req) ∧ TrimOf f sp req := by
  obtain ⟨spoutRange, holdRange, gateRange, openRange⟩ := good
  obtain ⟨sp, hsp, spByte⟩ := spoutOfByte_some spoutRange
  obtain ⟨hold, hhold, holdVal⟩ := holdOfByte_some holdRange
  obtain ⟨gate, hgate, gateByte⟩ := pourSetting_some gateRange
  obtain ⟨openBy, hopen, openByte⟩ := openByOfByte_some openRange
  exact ⟨sp, _, by rw [trimOfFields, hsp, hhold, hgate, hopen],
    spByte, holdByte_of_val holdVal, rfl, gateByte, openByte⟩

end

/-! ## The running step's place and the levels (R127, R143) -/

/-- Where numbers are distinct, a record of the plan is the first of its number. -/
theorem plan_split_first {l : List StepRec} {r : StepRec} (distinct : (l.map (·.number)).Nodup) (mem : r ∈ l) :
    ∃ before after, l = before ++ r :: after ∧ ∀ q ∈ before, q.number ≠ r.number := by
  obtain ⟨before, after, rfl⟩ := List.append_of_mem mem
  refine ⟨before, after, rfl, fun q here => ?_⟩
  rw [List.map_append, List.nodup_append] at distinct
  obtain ⟨_, _, apart⟩ := distinct
  exact apart _ (List.mem_map_of_mem here) _ (List.mem_map_of_mem List.mem_cons_self)

theorem levelFree_iff {s : State} {sp : Spout} :
    levelFree s sp = true ↔ (s.stack.levels.get sp).length < 3 ∨ s.stack.shared = .empty := by
  rw [levelFree, Bool.or_eq_true, decide_eq_true_iff, beq_iff_eq]
  rfl

/-! ## TRIM_POUR's checks (R144) -/

section
variable {s : State} {f : TrimFields}

theorem trimPour_bad (bad : ¬ TrimFieldsGood f) : trimPour f s = Reply.refuse .badValue s := by
  rw [trimPour, trimOfFields_none bad]

variable {sp : Spout} {req : TrimRequest} (read : trimOfFields f = some (sp, req))
include read

theorem trimPour_read : trimPour f s = trimChecked sp req s := by
  rw [trimPour, read]

theorem trimPour_full (full : 32 ≤ s.plan.length) : trimPour f s = Reply.refuse .planFull s :=
  (trimPour_read read).trans (if_pos full)

variable (room : s.plan.length < 32)
include room

theorem trimPour_tail (idle : runningStep s sp = none) : trimPour f s =
    Reply.ok (bytes16 (nextNumber s) ++ bytes16 0) (activationTest (createTrimAtTail sp req s)) := by
  rw [trimPour_read read, trimChecked, idle]
  exact if_neg (Nat.not_le.mpr room)

variable {r : StepRec} (running : runningStep s sp = some r)
include running

/-- Checks 4 to 6 of R144, for a running step. -/
theorem trimPour_running : trimPour f s =
    if levelFree s sp then
      Reply.ok (bytes16 (nextNumber s) ++ bytes16 r.number) (activationTest (trimPushed sp r req s))
    else if (s.stack.latches.get sp).isNone then { code := .latched, data := [], state := setLatch sp req s }
    else Reply.refuse .trimLatched s := by
  rw [trimPour_read read, trimChecked, running, ← pushRunning_eq]
  exact if_neg (Nat.not_le.mpr room)

theorem trimPour_pushes (level : (s.stack.levels.get sp).length < 3 ∨ s.stack.shared = .empty) : trimPour f s =
    Reply.ok (bytes16 (nextNumber s) ++ bytes16 r.number) (activationTest (trimPushed sp r req s)) :=
  (trimPour_running read room running).trans (if_pos (levelFree_iff.mpr level))

variable (full : 3 ≤ (s.stack.levels.get sp).length) (taken : s.stack.shared ≠ .empty)
include full taken

theorem trimPour_noLevel : trimPour f s =
    if (s.stack.latches.get sp).isNone then { code := .latched, data := [], state := setLatch sp req s }
    else Reply.refuse .trimLatched s :=
  (trimPour_running read room running).trans
    (if_neg fun level => (levelFree_iff.mp level).elim (Nat.not_lt.mpr full) taken)

theorem trimPour_latches (clear : s.stack.latches.get sp = none) :
    trimPour f s = { code := .latched, data := [], state := setLatch sp req s } :=
  (trimPour_noLevel read room running full taken).trans (if_pos (Option.isNone_iff_eq_none.mpr clear))

theorem trimPour_trimLatched (waits : s.stack.latches.get sp ≠ none) : trimPour f s = Reply.refuse .trimLatched s :=
  (trimPour_noLevel read room running full taken).trans (if_neg (mt Option.isNone_iff_eq_none.mp waits))

end

/-! ## The push, as the plan's records (R145, R146) -/

/-- The state a push leaves: the TRIM record before the step set aside, the counter, the close, the level. -/
theorem trimPushed_eq {s : State} {sp : Spout} {r : StepRec} {req : TrimRequest} {before after : List StepRec}
    (plan : s.plan = before ++ r :: after) (first : ∀ q ∈ before, q.number ≠ r.number) :
    let aside := fun l => planWith r.number (fun q => { q with state := .suspended }) (s.withPlan l)
    let e : StackEntry := { suspended := r.number, trim := nextNumber s }
    trimPushed sp r req s =
      (((s.withStepCounter (advance (nextNumber s))).withPlan
          (aside before ++ trimRecord sp req (nextNumber s) :: aside (r :: after))).withOrders
        (if r.state = .active then closedOrders sp s else s.orders)).withStack
      (if (s.stack.levels.get sp).length < 3 then
        { s.stack with levels := s.stack.levels.set sp (e :: s.stack.levels.get sp) }
      else { s.stack with shared := .entry sp e }) := by
  intro aside e
  rw [← trimPushed_plan (sp := sp) (req := req) plan first]
  rfl

/-- A taken request that calls for no activation test is answered with its code from the state it leaves, and the arbiter
runs. -/
theorem exec_acts_coded {c : Instr} {tag : Byte} {s t : State} {op : State → Reply} {code : Code} {data : List Byte}
    (taken : Taken s) (run : exec c s = .next (receive (repliedActs tag op) s))
    (h : op (heard s) = { code := code, data := data, state := heard t }) :
    exec c s = .next (arbitrate (replyTo tag code data t)) := by
  rw [run, receive_taken taken, repliedActs, replied, h]
  rfl

/-- Settles O51: the checks in order, the record at the tail, the push, and the latch. -/
theorem trimPour_checksThenPours : Obligations.TrimPour := by
  unfold Obligations.TrimPour
  intro tag f s taken plan
  refine ⟨fun bad => ?_, fun good full => ?_, fun good room => ?_⟩
  case refine_1 => exact exec_acts_unchanged taken rfl (trimPour_bad (s := heard s) bad)
  case refine_2 =>
    obtain ⟨sp, req, read, _⟩ := trimOfFields_some good
    exact exec_acts_unchanged taken rfl (trimPour_full (s := heard s) read full)
  case refine_3 =>
    obtain ⟨sp, req, read, fields⟩ := trimOfFields_some good
    obtain ⟨unused, named⟩ := nextNumber_unused plan.counter room
    refine ⟨sp, req, trimRecord sp req (nextNumber s), fields, rfl, nextNumber_counter, unused, named,
      fun idle => ?_, fun r running => ⟨fun level => ?_, fun full busy => ⟨fun clear => ?_, fun waits => ?_⟩⟩⟩
    case refine_1 => exact exec_tested taken rfl (trimPour_tail (s := heard s) read room idle)
    case refine_2 =>
      obtain ⟨_, mem, spout⟩ := runningStep_some s running
      obtain ⟨before, after, split, first⟩ := plan_split_first plan.distinct mem
      refine ⟨before, after, split, first, exec_tested taken rfl ?_⟩
      rw [trimPour_pushes (s := heard s) read room running level, trimPushed_eq (s := heard s) split first, spout]
      rfl
    case refine_3 => exact exec_acts_coded taken rfl (trimPour_latches (s := heard s) read room running full busy clear)
    case refine_4 =>
      exact exec_acts_unchanged taken rfl (trimPour_trimLatched (s := heard s) read room running full busy waits)

end Sys2Proof.Machine
end

section
/-! The bill readout: READ_BILL_OPEN, READ_BILL_NEXT and READ_BILL_END (R149 to R151, R167 to R170). -/

namespace Sys2Proof.Machine

/-! ## Opening the cursor (R167) -/

section
variable {s : State} {n : Word16}

/-- A slot's record carries the number. -/
def Carried (s : State) (n : Word16) : Prop := ∃ (i : Fin 8) (b : Bill), s.bills[i] = some b ∧ b.number = n

theorem findBill_isSome_iff : (findBill s n).isSome = true ↔ Carried s n := by
  constructor
  · intro known
    obtain ⟨⟨i, b⟩, found⟩ := Option.isSome_iff_exists.mp known
    exact ⟨i, b, findBill_some found⟩
  · rintro ⟨i, b, record, number⟩
    exact Option.isSome_iff_ne_none.mpr fun absent => findBill_none absent record number

/-- Where numbers are distinct, the lookup finds the record that carries the number. -/
theorem findBill_record (good : BillsGood s) {i : Fin 8} {b : Bill} (record : s.bills[i] = some b)
    (number : b.number = n) : findBill s n = some (i, b) := by
  obtain ⟨⟨j, c⟩, found⟩ := Option.isSome_iff_exists.mp (findBill_isSome_iff.mpr ⟨i, b, record, number⟩)
  obtain ⟨recordC, numberC⟩ := findBill_some found
  obtain rfl := good.distinct j i c b recordC record (numberC.trans number.symm)
  obtain rfl := Option.some.inj (recordC.symm.trans record)
  exact found

theorem readBillOpen_absent (absent : ¬ Carried s n) : readBillOpen n s = Reply.refuse .noBill s := by
  refine if_pos ?_
  rw [Option.isNone_iff_eq_none]
  exact Option.not_isSome_iff_eq_none.mp (mt findBill_isSome_iff.mp absent)

theorem readBillOpen_carried (carried : Carried s n) : readBillOpen n s =
    if s.stack.shared = .empty then Reply.ok [] (setShared (.cursor n 0) s) else Reply.refuse .cursorBusy s := by
  refine if_neg fun absent => ?_
  obtain ⟨i, b, record, number⟩ := carried
  exact findBill_none (Option.isNone_iff_eq_none.mp absent) record number

theorem readBillOpen_busy (carried : Carried s n) (busy : s.stack.shared ≠ .empty) :
    readBillOpen n s = Reply.refuse .cursorBusy s := (readBillOpen_carried carried).trans (if_neg busy)

theorem readBillOpen_opens (carried : Carried s n) (free : s.stack.shared = .empty) :
    readBillOpen n s = Reply.ok [] (setShared (.cursor n 0) s) := (readBillOpen_carried carried).trans (if_pos free)

end

/-! ## No cursor -/

section
variable {s : State} (closed : ∀ n item, s.stack.shared ≠ .cursor n item)
include closed

theorem readBillNext_noCursor : readBillNext s = Reply.refuse .noCursor s := by
  unfold readBillNext
  split
  · rename_i n item cursor
    exact absurd cursor (closed n item)
  · rfl

theorem readBillEnd_noCursor : readBillEnd s = Reply.refuse .noCursor s := by
  unfold readBillEnd
  split
  · rename_i n item cursor
    exact absurd cursor (closed n item)
  · rfl

end

/-! ## The items (R168, R169) -/

theorem billItem_hold (i : Fin 8) (b : Bill) (h : Hold) :
    billItem i b (h.val + 1) = byteOfNat (h.val + 1) :: bytes32 b.holds[h] := by
  rw [billItem, if_neg (Nat.succ_ne_zero _)]
  exact dif_pos h.isLt

section
variable {s : State} {n : Word16} {item : Nat} {i : Fin 8} {b : Bill} (cursor : s.stack.shared = .cursor n item)
  (found : findBill s n = some (i, b))
include cursor found

theorem readBillNext_found : readBillNext s =
    if item ≤ 12 then Reply.ok (byteOfNat item :: billItem i b item) (setShared (.cursor n (item + 1)) s)
    else { code := .endMark, data := [], state := markRead i b s } := by
  rw [readBillNext, cursor]
  dsimp only
  rw [found]

theorem readBillNext_item (more : item ≤ 12) : readBillNext s =
    Reply.ok (byteOfNat item :: billItem i b item) (setShared (.cursor n (item + 1)) s) :=
  (readBillNext_found cursor found).trans (if_pos more)

theorem readBillNext_end (past : 13 ≤ item) :
    readBillNext s = { code := .endMark, data := [], state := markRead i b s } :=
  (readBillNext_found cursor found).trans (if_neg (Nat.not_le.mpr past))

theorem readBillNext_end_closed (past : 13 ≤ item) (closed : b.state = .closed) :
    readBillNext s = { code := .endMark, data := [], state := setBill i { b with readThrough := true } s } := by
  rw [readBillNext_end cursor found past, markRead, if_pos closed]

theorem readBillNext_end_other (past : 13 ≤ item) (other : b.state ≠ .closed) :
    readBillNext s = { code := .endMark, data := [], state := s } := by
  rw [readBillNext_end cursor found past, markRead, if_neg other]

end

/-- A taken request is answered with its code from the state it leaves. -/
theorem exec_replied_coded {c : Instr} {tag : Byte} {s t : State} {op : State → Reply} {code : Code}
    {data : List Byte} (taken : Taken s) (run : exec c s = .next (receive (replied tag op) s))
    (h : op (heard s) = { code := code, data := data, state := heard t }) :
    exec c s = .next (replyTo tag code data t) := by
  rw [run, receive_taken taken, replied, h]
  rfl

/-! ## Closing the cursor (R149, R151) -/

section
variable {s : State}

theorem readBillEnd_closes {n : Word16} {item : Nat} (cursor : s.stack.shared = .cursor n item) :
    readBillEnd s = Reply.ok [] (activationTest (serveShared (setShared .empty s))) := by
  rw [readBillEnd, cursor]

/-- Over a full plan, the one latch that is set is discarded when the shared level is offered (R149). -/
theorem serveShared_full {sp : Spout} {req : TrimRequest} (shared : s.stack.shared = .empty)
    (older : s.stack.older = some sp) (latched : s.stack.latches.get sp = some req)
    (clear : s.stack.latches.get (otherSpout sp) = none) (full : 32 ≤ s.plan.length) :
    serveShared s = setNotice .trimTaken 0
      (s.withStack { s.stack with latches := s.stack.latches.set sp none, older := none }) := by
  have cleared : latchCleared sp s.stack = { s.stack with latches := s.stack.latches.set sp none, older := none } := by
    rw [latchCleared, if_pos clear]
  have otherClear : (s.stack.latches.set sp none).get (otherSpout sp) = none := by
    rwa [Pair.get_set_other _ _ _ _ (by cases sp <;> decide)]
  rw [serveShared_serves shared older, serveLatch_full latched full, cleared]
  exact (if_pos shared).trans (serveLatch_clear otherClear)

end

/-- Settles O53: the cursor's opening, a request without one, the items and END, and the closing with the service of the
shared level. -/
theorem billReadout : Obligations.BillReadout := by
  unfold Obligations.BillReadout
  refine ⟨fun tag n s taken => ⟨fun absent => ?_, fun carried busy => ?_, fun carried free => ?_⟩,
    fun tag s taken closed => ⟨?_, ?_⟩, fun tag s n item i b taken good cursor record number => ?_,
    fun tag s n item taken cursor => ⟨?_, fun idle => ?_, fun sp req older latched clear full => ?_⟩⟩
  case refine_1 => exact exec_replied_refused taken rfl (readBillOpen_absent (s := heard s) absent)
  case refine_2 => exact exec_replied_refused taken rfl (readBillOpen_busy (s := heard s) carried busy)
  case refine_3 => exact exec_replied_ok taken rfl (readBillOpen_opens (s := heard s) carried free)
  case refine_4 => exact exec_replied_refused taken rfl (readBillNext_noCursor (s := heard s) closed)
  case refine_5 => exact exec_acts_unchanged taken rfl (readBillEnd_noCursor (s := heard s) closed)
  case refine_6 =>
    have found : findBill (heard s) n = some (i, b) := findBill_record good record number
    refine ⟨fun more => ⟨billItem i b item,
        exec_replied_ok taken rfl (readBillNext_item (s := heard s) cursor found more), ?_, ?_, ?_, ?_, ?_⟩,
      fun past closed => exec_replied_coded taken rfl (readBillNext_end_closed (s := heard s) cursor found past closed),
      fun past other => exec_replied_unchanged taken rfl (readBillNext_end_other (s := heard s) cursor found past other)⟩
    case refine_2 =>
      rintro h rfl
      exact billItem_hold i b h
    all_goals
      rintro rfl
      rfl
  case refine_7 => exact exec_tested taken rfl (readBillEnd_closes (s := heard s) cursor)
  case refine_8 =>
    refine exec_tested taken rfl ((readBillEnd_closes (s := heard s) cursor).trans ?_)
    rw [serveShared_idle (s := setShared .empty (heard s)) (.inr idle)]
    rfl
  case refine_9 =>
    refine exec_tested taken rfl ((readBillEnd_closes (s := heard s) cursor).trans ?_)
    rw [serveShared_full (s := setShared .empty (heard s)) rfl older latched clear full]
    rfl

end Sys2Proof.Machine
end

section
/-! OPEN_BILL, CLOSE_BILL, CLEAR_UNBILLED and ISSUE_BILL (R163, R164, R166, R169, R171, R172). -/

namespace Sys2Proof.Machine

/-! ## OPEN_BILL's checks (R163) -/

section
variable {s : State} {n : Word16}

/-- A slot's record is OPEN. -/
def HasOpenBill (s : State) : Prop := ∃ (i : Fin 8) (b : Bill), s.bills[i] = some b ∧ b.state = .opened

theorem openSlot_isSome_iff : (openSlot s).isSome = true ↔ HasOpenBill s := by
  constructor
  · intro known
    obtain ⟨i, slot⟩ := Option.isSome_iff_exists.mp known
    exact ⟨i, openSlot_some slot⟩
  · rintro ⟨i, b, record, isOpen⟩
    exact Option.isSome_iff_ne_none.mpr fun absent => openSlot_none absent record isOpen

theorem openBill_open (isOpen : HasOpenBill s) : openBill n s = Reply.refuse .billOpen s :=
  if_pos (openSlot_isSome_iff.mpr isOpen)

variable (noneOpen : ¬ HasOpenBill s)
include noneOpen

theorem openBill_zero (zero : n = 0) : openBill n s = Reply.refuse .badValue s :=
  (if_neg (mt openSlot_isSome_iff.mp noneOpen)).trans (if_pos zero)

theorem openBill_named (named : n ≠ 0) : openBill n s =
    if (findBill s n).isSome then Reply.refuse .dupBill s
    else
      match newSlot s with
      | none => Reply.refuse .billTableFull s
      | some i => Reply.ok [byteOfNat i.val] (setBill i (newBill n s.clock.minutes) s) :=
  (if_neg (mt openSlot_isSome_iff.mp noneOpen)).trans (if_neg named)

variable (named : n ≠ 0)
include named

theorem openBill_carried (carried : Carried s n) : openBill n s = Reply.refuse .dupBill s :=
  (openBill_named noneOpen named).trans (if_pos (findBill_isSome_iff.mpr carried))

variable (new : ¬ Carried s n)
include new

theorem openBill_full (full : newSlot s = none) : openBill n s = Reply.refuse .billTableFull s := by
  rw [openBill_named noneOpen named, if_neg (mt findBill_isSome_iff.mp new), full]

theorem openBill_takes {i : Fin 8} (slot : newSlot s = some i) :
    openBill n s = Reply.ok [byteOfNat i.val] (setBill i (newBill n s.clock.minutes) s) := by
  rw [openBill_named noneOpen named, if_neg (mt findBill_isSome_iff.mp new), slot]

end

/-! ## The slot a new record takes (R164) -/

section
variable {s : State}

theorem cursorNames_iff {n : Word16} : cursorNames s n = true ↔ ∃ item, s.stack.shared = .cursor n item := by
  unfold cursorNames
  split
  · rename_i m item cursor
    simp [cursor]
  · rename_i other
    exact ⟨fun h => (nomatch h), fun ⟨item, cursor⟩ => absurd cursor (other n item)⟩

/-- The slot's record may make room: it is ISSUED and the cursor does not name it. -/
def Evictable (s : State) (i : Fin 8) (b : Bill) : Prop :=
  s.bills[i] = some b ∧ b.state = .issued ∧ ∀ item, s.stack.shared ≠ .cursor b.number item

theorem evictable_some {i : Fin 8} {x : Word32} :
    evictable s i = some x ↔ ∃ b, Evictable s i b ∧ b.closedAt = x := by
  have unnamed : ∀ n : Word16, cursorNames s n = false ↔ ∀ item, s.stack.shared ≠ .cursor n item := fun n => by
    rw [← Bool.not_eq_true, cursorNames_iff, not_exists]
  unfold evictable Evictable
  cases record : s.bills[i] with
  | none => simp
  | some b => simp [unnamed]

theorem newSlot_empty {i : Fin 8} (empty : s.bills[i] = none) (lowest : ∀ j : Fin 8, j < i → s.bills[j] ≠ none) :
    newSlot s = some i := by
  have slot : emptySlot s = some i :=
    finRange_find?_least (Option.isNone_iff_eq_none.mpr empty) fun j below =>
      mt Option.isNone_iff_eq_none.mp (lowest j below)
  rw [newSlot, slot]

theorem newSlot_evicts (taken : ∀ i : Fin 8, s.bills[i] ≠ none) : newSlot s = evictSlot s := by
  have slot : emptySlot s = none :=
    List.find?_eq_none.mpr fun j _ => mt Option.isNone_iff_eq_none.mp (taken j)
  rw [newSlot, slot]

/-! ### The search for the earliest closed -/

theorem earlier_eq (best : Option (Fin 8)) (i : Fin 8) :
    earlier s best i = best ∨ (earlier s best i = some i ∧ (evictable s i).isSome = true) := by
  unfold earlier
  split
  · rename_i evicts _
    split
    · exact .inr ⟨rfl, by rw [evicts]; rfl⟩
    · exact .inl rfl
  · rename_i evicts _
    exact .inr ⟨rfl, by rw [evicts]; rfl⟩
  · exact .inl rfl

/-- What holds of every slot that can be evicted holds of the slot the search ends with. -/
theorem earlier_foldl_found {P : Fin 8 → Prop} {l : List (Fin 8)} {best : Option (Fin 8)}
    (start : ∀ k ∈ best, P k) (found : ∀ j ∈ l, (evictable s j).isSome = true → P j) :
    ∀ k ∈ l.foldl (earlier s) best, P k := by
  induction l generalizing best with
  | nil => exact start
  | cons i l ih =>
    refine ih (fun k mem => ?_) fun j mem => found j (List.mem_cons_of_mem _ mem)
    obtain kept | ⟨taken, evicts⟩ := earlier_eq (s := s) best i
    · exact start k (kept ▸ mem)
    · rw [taken] at mem
      exact Option.mem_some_iff.mp mem ▸ found i List.mem_cons_self evicts

theorem earlier_takes {best : Option (Fin 8)} {i : Fin 8} {x : Word32} (evicts : evictable s i = some x)
    (later : ∀ k ∈ best, ∀ y, evictable s k = some y → x.toNat < y.toNat) : earlier s best i = some i := by
  rw [earlier, evicts]
  split
  · rename_i x' y same old
    obtain ⟨k, mem, old⟩ := Option.bind_eq_some_iff.mp old
    cases same
    exact if_pos (later k mem y old)
  · rfl
  · rename_i absent
    cases absent

theorem earlier_stays {i j : Fin 8} {x : Word32} (evicts : evictable s i = some x)
    (notLater : ∀ y, evictable s j = some y → ¬ y.toNat < x.toNat) : earlier s (some i) j = some i := by
  rw [earlier, Option.bind_some, evicts]
  split
  · rename_i y x' other same
    cases same
    exact if_neg (notLater y other)
  · rename_i absent
    cases absent
  · rfl

theorem evictSlot_none (absent : ∀ i b, ¬ Evictable s i b) : evictSlot s = none := by
  refine Option.eq_none_iff_forall_ne_some.mpr fun k found => ?_
  refine earlier_foldl_found (P := fun _ => False) (fun k mem => Option.not_mem_none k mem)
    (fun j _ evicts => ?_) k found
  obtain ⟨x, evicts⟩ := Option.isSome_iff_exists.mp evicts
  obtain ⟨b, old, _⟩ := evictable_some.mp evicts
  exact absent j b old

/-- The search ends with the earliest closed record, of several the lowest-numbered slot. -/
theorem evictSlot_earliest {i : Fin 8} {b : Bill} (old : Evictable s i b) (first : ∀ j c, Evictable s j c →
    b.closedAt.toNat < c.closedAt.toNat ∨ (b.closedAt = c.closedAt ∧ i ≤ j)) : evictSlot s = some i := by
  have evicts : evictable s i = some b.closedAt := evictable_some.mpr ⟨b, old, rfl⟩
  have beats : ∀ j y, evictable s j = some y → b.closedAt.toNat < y.toNat ∨ (b.closedAt = y ∧ i ≤ j) := by
    intro j y evictsJ
    obtain ⟨c, oldJ, rfl⟩ := evictable_some.mp evictsJ
    exact first j c oldJ
  obtain ⟨below, above, split⟩ := List.append_of_mem (List.mem_finRange i)
  have ordered := List.pairwise_lt_finRange 8
  rw [split, List.pairwise_append] at ordered
  obtain ⟨_, _, apart⟩ := ordered
  have before : ∀ k ∈ below.foldl (earlier s) none, k < i :=
    earlier_foldl_found (fun k mem => absurd mem (Option.not_mem_none k)) fun j mem _ =>
      apart j mem i List.mem_cons_self
  have taken : earlier s (below.foldl (earlier s) none) i = some i :=
    earlier_takes evicts fun k mem y evictsK => (beats k y evictsK).resolve_right fun ⟨_, least⟩ =>
      absurd (before k mem) (not_lt.mpr least)
  have stays : ∀ j, earlier s (some i) j = some i := fun j => earlier_stays evicts fun y evictsJ sooner => by
    obtain later | ⟨same, _⟩ := beats j y evictsJ
    · exact absurd later (not_lt.mpr sooner.le)
    · exact absurd sooner (same ▸ lt_irrefl _)
  rw [evictSlot, split, List.foldl_append, List.foldl_cons, taken, List.foldl_fixed' stays]

end

/-! ## CLOSE_BILL (R166, R169) -/

/-- The shared level after the record of this number closes: a cursor on it is back at item 0. -/
def rewoundShared (n : Word16) (s : State) : Shared := if cursorNames s n then .cursor n 0 else s.stack.shared

section
variable {s : State} {n : Word16}

theorem rewindCursor_eq : rewindCursor n s = s.withStack { s.stack with shared := rewoundShared n s } := by
  unfold rewindCursor rewoundShared
  split <;> rfl

theorem rewoundShared_named {item : Nat} (cursor : s.stack.shared = .cursor n item) :
    rewoundShared n s = .cursor n 0 := if_pos (cursorNames_iff.mpr ⟨item, cursor⟩)

theorem rewoundShared_other (other : ∀ item, s.stack.shared ≠ .cursor n item) :
    rewoundShared n s = s.stack.shared := if_neg fun names => by
  obtain ⟨item, cursor⟩ := cursorNames_iff.mp names
  exact other item cursor

theorem closeBill_noBill (noneOpen : openSlot s = none) : closeBill s = Reply.refuse .noBill s := by
  rw [closeBill, noneOpen]
  rfl

variable {i : Fin 8} {b : Bill} (slot : openSlot s = some i) (record : s.bills[i] = some b)
include slot record

theorem closeBill_unclosed {sp : Spout} (gate : unclosedGate s = some sp) :
    closeBill s = { code := .gatesNotClosed, data := [sp.byte], state := s } := by
  rw [closeBill, slot, Option.bind_some, record, Option.map_some, gate]

theorem closeBill_closes (gates : unclosedGate s = none) : closeBill s =
    Reply.ok (bytes16 b.number ++ bytes32 b.total) ((setBill i (closedBill b s.clock.minutes) s).withStack
      { s.stack with shared := rewoundShared b.number s }) := by
  rw [closeBill, slot, Option.bind_some, record, Option.map_some, gates]
  dsimp only
  rw [rewindCursor_eq]
  rfl

end

/-- Settles O52: OPEN_BILL's checks and its slot, CLOSE_BILL's checks and its closing, the total CLEAR_UNBILLED
returns. -/
theorem openCloseAndUnbilled : Obligations.OpenCloseAndUnbilled := by
  unfold Obligations.OpenCloseAndUnbilled
  refine ⟨fun tag n s taken => ⟨fun isOpen => ?_, fun noneOpen zero => ?_, fun noneOpen named carried => ?_,
      fun noneOpen named new full absent => ?_, fun noneOpen named new i slot => ?_⟩,
    fun tag s taken => ⟨fun noneOpen => ?_, fun i b slot record => ⟨fun gateA => ?_, fun gateA fit gateB => ?_,
      fun gateA gateB => ⟨rewoundShared b.number s, ?_, fun item cursor => ?_, fun other => ?_⟩⟩⟩,
    fun tag s taken => ?_⟩
  case refine_1 => exact exec_replied_refused taken rfl (openBill_open (s := heard s) isOpen)
  case refine_2 => exact exec_replied_refused taken rfl (openBill_zero (s := heard s) noneOpen zero)
  case refine_3 => exact exec_replied_refused taken rfl (openBill_carried (s := heard s) noneOpen named carried)
  case refine_4 =>
    have noSlot : newSlot (heard s) = none :=
      (newSlot_evicts (s := heard s) full).trans (evictSlot_none (s := heard s) absent)
    exact exec_replied_refused taken rfl (openBill_full (s := heard s) noneOpen named new noSlot)
  case refine_5 =>
    have takes : newSlot (heard s) = some i := by
      obtain ⟨empty, lowest⟩ | ⟨full, b, old, first⟩ := slot
      · exact newSlot_empty (s := heard s) empty lowest
      · exact (newSlot_evicts (s := heard s) full).trans (evictSlot_earliest (s := heard s) old first)
    exact exec_replied_ok taken rfl (openBill_takes (s := heard s) noneOpen named new takes)
  case refine_6 => exact exec_replied_refused taken rfl (closeBill_noBill (s := heard s) noneOpen)
  case refine_7 =>
    exact exec_replied_unchanged taken rfl (closeBill_unclosed (s := heard s) slot record (unclosedGate_a gateA))
  case refine_8 =>
    exact exec_replied_unchanged taken rfl
      (closeBill_unclosed (s := heard s) slot record (unclosedGate_b gateA fit gateB))
  case refine_9 =>
    have gates : unclosedGate (heard s) = none := unclosedGate_none fun sp fit => by
      cases sp with
      | a => exact gateA
      | b => exact gateB fit
    exact exec_replied_ok taken rfl (closeBill_closes (s := heard s) slot record gates)
  case refine_10 => exact rewoundShared_named cursor
  case refine_11 => exact rewoundShared_other other
  case refine_12 => exact exec_replied_ok taken rfl rfl

/-! ## ISSUE_BILL (R171) -/

section
variable {s : State} {n : Word16}

theorem issueBill_absent (absent : ∀ (i : Fin 8) (b : Bill), s.bills[i] = some b → b.number ≠ n) :
    issueBill n s = Reply.refuse .noBill s := by
  have unknown : findBill s n = none := Option.not_isSome_iff_eq_none.mp fun known => by
    obtain ⟨i, b, record, number⟩ := findBill_isSome_iff.mp known
    exact absent i b record number
  rw [issueBill, unknown]

variable {i : Fin 8} {b : Bill} (found : findBill s n = some (i, b))
include found

theorem issueBill_issues (ready : b.state = .closed ∧ b.readThrough = true) : issueBill n s =
    Reply.ok (bytes16 b.number ++ bytes32 b.total) (setBill i { b with state := .issued } s) := by
  rw [issueBill, found]
  exact if_pos ready

theorem issueBill_notRead (unready : ¬ (b.state = .closed ∧ b.readThrough = true)) :
    issueBill n s = Reply.refuse .notRead s := by
  rw [issueBill, found]
  exact if_neg unready

end

/-- Settles O54: where numbers are distinct the lookup finds the record, and its state and mark decide. -/
theorem issueBill_issuesOnlyRead : Obligations.IssueBill := by
  unfold Obligations.IssueBill
  refine fun tag n s taken good => ⟨fun absent => ?_, fun i b record number => ?_⟩
  · exact exec_replied_refused taken rfl (issueBill_absent (s := heard s) absent)
  · have found : findBill (heard s) n = some (i, b) := findBill_record good record number
    split
    · rename_i ready
      exact exec_replied_ok taken rfl (issueBill_issues (s := heard s) found ready)
    · rename_i unready
      exact exec_replied_refused taken rfl (issueBill_notRead (s := heard s) found unready)

end Sys2Proof.Machine
end

section
/-! What clears a notice flag, and what changes a bill that is not OPEN (R160, R164, R166, R169, R171, R185). -/

namespace Sys2Proof.Machine

/-! ## Flags that stay set and bills that stay closed -/

/-- The notice flags and the bill table. -/
def flagsAndBills (s : State) : Vector Bool 13 × Vector (Option Bill) 8 := (s.notices.flags, s.bills)

/-- A flag that is set stays set. -/
def FlagsStay (s t : State) : Prop := ∀ n : Fin 13, s.notices.flags[n] = true → t.notices.flags[n] = true

/-- The record afterwards is not OPEN, and but for its state and its mark it is the one before. -/
def Bill.Kept (b c : Bill) : Prop :=
  c = { b with state := c.state, readThrough := c.readThrough } ∧ c.state ≠ .opened

/-- An ISSUED record has made room for a new one (R164). -/
def Bill.Replaced (b c : Bill) : Prop := b.state = .issued ∧ c.state = .opened ∧ c.total = 0

/-- A record that is not OPEN keeps its amounts, times and counts. -/
def ClosedBillsKept (s t : State) : Prop :=
  ∀ (i : Fin 8) (b : Bill), s.bills[i] = some b → b.state ≠ .opened → ∃ c, t.bills[i] = some c ∧ b.Kept c

/-- A record that is not OPEN keeps them, or a new record is in its slot. -/
def ClosedBillsStay (s t : State) : Prop :=
  ∀ (i : Fin 8) (b : Bill), s.bills[i] = some b → b.state ≠ .opened →
    ∃ c, t.bills[i] = some c ∧ (b.Kept c ∨ b.Replaced c)

/-- Work that clears no flag and keeps every record that is not OPEN. -/
structure Lasts (s t : State) : Prop where
  flags : FlagsStay s t
  bills : ClosedBillsKept s t

theorem ClosedBillsKept.stay {s t : State} (h : ClosedBillsKept s t) : ClosedBillsStay s t := fun i b record left => by
  obtain ⟨c, now, kept⟩ := h i b record left
  exact ⟨c, now, .inl kept⟩

theorem Bill.Kept.refl {b : Bill} (left : b.state ≠ .opened) : b.Kept b := ⟨rfl, left⟩

theorem Bill.Kept.trans {b c d : Bill} (h : b.Kept c) (k : c.Kept d) : b.Kept d := by
  obtain ⟨same, _⟩ := h
  obtain ⟨same', left⟩ := k
  exact ⟨by rw [same', same], left⟩

theorem closedBillsKept_of_same {s t : State} (same : t.bills = s.bills) : ClosedBillsKept s t :=
  fun _ b record left => ⟨b, same ▸ record, .refl left⟩

namespace Lasts

theorem of_same {s t : State} (same : flagsAndBills t = flagsAndBills s) : Lasts s t := by
  obtain ⟨flags, bills⟩ := Prod.mk.inj same
  exact ⟨fun _ set => flags ▸ set, closedBillsKept_of_same bills⟩

theorem refl (s : State) : Lasts s s := of_same rfl

theorem trans {s t u : State} (h : Lasts s t) (k : Lasts t u) : Lasts s u := by
  refine ⟨fun n set => k.flags n (h.flags n set), fun i b record left => ?_⟩
  obtain ⟨c, now, same, leftC⟩ := h.bills i b record left
  obtain ⟨d, later, kept⟩ := k.bills i c now leftC
  exact ⟨d, later, .trans ⟨same, leftC⟩ kept⟩

theorem after {s t u : State} (w : Lasts t u) (same : flagsAndBills t = flagsAndBills s) : Lasts s u :=
  (of_same same).trans w

end Lasts

theorem updateOpenBill_closed {s : State} {i : Fin 8} {b : Bill} (f : Bill → Bill) (record : s.bills[i] = some b)
    (left : b.state ≠ .opened) : (updateOpenBill f s).bills[i] = some b := by
  cases slot : openSlot s with
  | none => rw [updateOpenBill_none slot, record]
  | some j =>
    obtain ⟨c, recordC, isOpen⟩ := openSlot_some slot
    have other : i ≠ j := by
      rintro rfl
      exact left (Option.some.inj (record.symm.trans recordC) ▸ isOpen)
    rw [updateOpenBill_some slot recordC, setBill_getElem, if_neg other, record]

/-- The blocks change no bill but the OPEN one. -/
theorem BlockWork.closedBill_stays {s t : State} (work : BlockWork s t) {i : Fin 8} {b : Bill}
    (record : s.bills[i] = some b) (left : b.state ≠ .opened) : t.bills[i] = some b := by
  induction work with
  | trans _ _ first second => exact second (first record)
  | inner change => rw [change.bills, record]
  | preempt s p c x => rw [preempt_refusedAll]; exact record
  | due s p => unfold pollDue; split <;> exact record
  | countDone s => exact updateOpenBill_closed _ record left
  | addHold s x d => exact updateOpenBill_closed _ record left
  | addUnplaced s d => exact updateOpenBill_closed _ record left
  | _ => exact record

theorem BlockWork.lasts {s t : State} (work : BlockWork s t) : Lasts s t :=
  ⟨work.flags_stay, fun _ b record left => ⟨b, work.closedBill_stays record left, .refl left⟩⟩

/-- The restart changes no bill but the OPEN one (R173). -/
theorem restartAll_closedBills (s : State) : ClosedBillsKept s (restartAll s) := fun i b record left =>
  ⟨b, by rw [restartAll_bill, record, Option.map_some, if_neg left], .refl left⟩

/-- A record put into a slot keeps what its slot held where that was not OPEN. -/
theorem setBill_lasts {s : State} {i : Fin 8} {b c : Bill} (record : s.bills[i] = some b)
    (kept : b.state ≠ .opened → b.Kept c) : Lasts s (setBill i c s) := by
  refine ⟨fun _ set => set, fun j d recordD left => ?_⟩
  rw [setBill_getElem]
  split
  · rename_i here
    subst here
    cases record.symm.trans recordD
    exact ⟨c, rfl, kept left⟩
  · exact ⟨d, recordD, .refl left⟩

/-! ## The requests' own work -/

section
variable (s : State)

theorem runRequest_lasts : Lasts s (runRequest s).state := by
  unfold runRequest
  split
  · exact .refl s
  · exact .refl s
  · split
    · exact .refl s
    · split
      · exact .refl s
      · rw [Reply.ok_state, enterRun_eq]
        exact (activationTest_work _).lasts.after rfl

theorem resumeRequest_lasts : Lasts s (resumeRequest s).state := by
  unfold resumeRequest
  split
  · exact .refl s
  · exact .refl s
  · split
    · exact .refl s
    · rw [Reply.ok_state, leaveHalt_eq]
      exact (activationTest_work _).lasts.after rfl

theorem setConsoleLevel_lasts (l : Byte) : Lasts s (setConsoleLevel l s).state := by
  unfold setConsoleLevel
  split
  · exact .refl s
  · split <;> exact .of_same rfl

/-- A configuration request whose write leaves flags and bills alone. -/
theorem inConfig_lasts {w : Option (State → State)}
    (h : ∀ g, w = some g → flagsAndBills (g s) = flagsAndBills s) : Lasts s (inConfig (writeIf w) s).state :=
  .of_same (inConfig_reads s h)

theorem loadStation_lasts (a : Byte) (p : Bool) (k u c : Byte) : Lasts s (loadStation a p k u c s).state :=
  inConfig_lasts s fun g written => by
    unfold writeStation at written
    split at written
    · cases written; rfl
    · cases written

theorem loadZone_lasts (z : ZoneFields) : Lasts s (loadZone z s).state :=
  inConfig_lasts s fun g written => by
    unfold writeZone at written
    split at written
    · split at written
      · cases written
      · cases written; rfl
    · cases written

theorem setZoneLimit_lasts (l : Byte) : Lasts s (setZoneLimit l s).state :=
  inConfig_lasts s fun g written => by
    unfold writeLimit at written
    split at written
    · cases written; rfl
    · cases written

theorem loadHead_lasts (h : HeadFields) : Lasts s (loadHead h s).state :=
  inConfig_lasts s fun g written => by
    unfold writeHead at written
    split at written
    · cases written; rfl
    · cases written

theorem setTiming_lasts (a b c d : Word16) : Lasts s (setTiming a b c d s).state :=
  inConfig_lasts s fun g written => by
    unfold writeTiming at written
    split at written
    · cases written; rfl
    · cases written

theorem setLimits_lasts (n c : Byte) (d : Word16) : Lasts s (setLimits n c d s).state :=
  inConfig_lasts s fun g written => by
    unfold writeLimits at written
    split at written
    · split at written
      · cases written; rfl
      · cases written
    · cases written

theorem setFreeboard_lasts (h : Byte) (o : Word16) : Lasts s (setFreeboard h o s).state := by
  unfold setFreeboard
  split
  · rename_i x _
    split
    · have tested : ∀ u sp, BlockWork u (if settledOver u sp x then testOverreach sp u else u) := fun u sp => by
        split
        · exact testOverreach_work u sp
        · exact .refl u
      exact ((BlockWork.foldl tested _ _).trans (tcuKnown_work _ _)).lasts.after rfl
    · exact .refl s
  · exact .refl s

theorem purgeSteps_lasts : Lasts s (purgeSteps s).state := (activationTest_work _).lasts.after rfl

theorem closeBill_lasts : Lasts s (closeBill s).state := by
  cases slot : openSlot s with
  | none =>
    rw [closeBill_noBill slot]
    exact .refl s
  | some i =>
    obtain ⟨b, record, isOpen⟩ := openSlot_some slot
    cases gate : unclosedGate s with
    | some sp =>
      rw [closeBill_unclosed slot record gate]
      exact .refl s
    | none =>
      rw [closeBill_closes slot record gate]
      exact (setBill_lasts record fun left => absurd isOpen left).trans (.of_same rfl)

theorem readBillNext_lasts : Lasts s (readBillNext s).state := by
  unfold readBillNext
  split
  · split
    · exact .refl s
    · rename_i i b found
      obtain ⟨record, _⟩ := findBill_some found
      split
      · exact .of_same rfl
      · show Lasts s (markRead i b s)
        unfold markRead
        split
        · exact setBill_lasts record fun left => ⟨rfl, left⟩
        · exact .refl s
  · exact .refl s

theorem issueBill_lasts (n : Word16) : Lasts s (issueBill n s).state := by
  unfold issueBill
  split
  · exact .refl s
  · rename_i i b found
    obtain ⟨record, _⟩ := findBill_some found
    split
    · exact setBill_lasts record fun _ => ⟨rfl, fun h => nomatch h⟩
    · exact .refl s

theorem setNoticeMask_lasts (n : Word16) : Lasts s (setNoticeMask n s).state := by
  unfold setNoticeMask
  split <;> exact .of_same rfl

theorem nextNotice_bills : (nextNotice s).state.bills = s.bills := by unfold nextNotice; split <;> rfl

theorem clearNotices_bills (n : Word16) : (clearNotices n s).state.bills = s.bills := by
  unfold clearNotices; split <;> rfl

end

/-! ## OPEN_BILL -/

section
variable {s : State}

/-- The slot a new record takes is empty or holds an ISSUED record (R164). -/
theorem newSlot_some {i : Fin 8} (slot : newSlot s = some i) {b : Bill} (record : s.bills[i] = some b) :
    b.state = .issued := by
  unfold newSlot at slot
  split at slot
  · rename_i j empty
    cases slot
    have vacant := List.find?_some (p := fun j : Fin 8 => (s.bills[j]).isNone) empty
    exact nomatch record.symm.trans (Option.isNone_iff_eq_none.mp vacant)
  · obtain ⟨x, evicts⟩ := Option.isSome_iff_exists.mp <|
      earlier_foldl_found (P := fun j => (evictable s j).isSome = true)
        (fun k mem => absurd mem (Option.not_mem_none k)) (fun _ _ evicts => evicts) i slot
    obtain ⟨c, ⟨recordC, issued, _⟩, _⟩ := evictable_some.mp evicts
    cases record.symm.trans recordC
    exact issued

/-- OPEN_BILL changes nothing, or puts a new record into the slot it takes. -/
theorem openBill_state (n : Word16) : (openBill n s).state = s ∨
    ∃ i, newSlot s = some i ∧ (openBill n s).state = setBill i (newBill n s.clock.minutes) s := by
  unfold openBill
  split
  · exact .inl rfl
  · split
    · exact .inl rfl
    · split
      · exact .inl rfl
      · split
        · exact .inl rfl
        · rename_i i slot
          exact .inr ⟨i, slot, rfl⟩

theorem openBill_notices (n : Word16) : (openBill n s).state.notices = s.notices := by
  obtain unchanged | ⟨i, _, opened⟩ := openBill_state (s := s) n
  · rw [unchanged]
  · rw [opened]
    rfl

theorem openBill_closedBills (n : Word16) : ClosedBillsStay s (openBill n s).state := by
  obtain unchanged | ⟨i, slot, opened⟩ := openBill_state (s := s) n
  · rw [unchanged]
    exact (Lasts.refl s).bills.stay
  · rw [opened]
    intro j b record left
    rw [setBill_getElem]
    split
    · rename_i here
      subst here
      exact ⟨_, rfl, .inr ⟨newSlot_some slot record, rfl, rfl⟩⟩
    · exact ⟨b, record, .inl (.refl left)⟩

end

/-! ## Taking a frame -/

/-- A received frame is set aside, which clears no flag and changes no bill, or it is taken. -/
theorem receive_follows {R : State → State → Prop} (lasts : ∀ {s t}, Lasts s t → R s t)
    (after : ∀ {s t u}, flagsAndBills t = flagsAndBills s → R t u → R s u) {taken : State → State}
    (h : ∀ u, R u (taken u)) (s : State) : R s (receive taken s) := by
  have heardFrame : Lasts s (heard s) := .of_same rfl
  rw [receive_eq]
  split
  · exact lasts (.refl s)
  · split
    · exact lasts heardFrame
    · split
      · exact lasts (heardFrame.trans (BlockWork.notice _ _ _).lasts)
      · exact after (t := heard s) rfl (h _)

section
variable (u : State)

theorem replied_lasts {tag : Byte} {op : State → Reply} (h : Lasts u (op u).state) : Lasts u (replied tag op u) :=
  h.trans (.of_same rfl)

theorem repliedActs_lasts {tag : Byte} {op : State → Reply} (h : Lasts u (op u).state) :
    Lasts u (repliedActs tag op u) := (replied_lasts u h).trans (arbitrate_work _).lasts

theorem relayTaken_lasts {tag dest kind : Byte} {arrival : State → State} (h : Lasts u (arrival u)) :
    Lasts u (relayTaken tag dest kind arrival u) := by
  unfold relayTaken
  split
  · exact h.trans (arbitrate_work _).lasts
  · exact .of_same rfl

theorem moveArrival_lasts (tag dest : Byte) (m : MoveFields) : Lasts u (moveArrival tag dest m u) := by
  unfold moveArrival
  split
  · exact .of_same rfl
  · split
    · exact .of_same rfl
    · exact (acceptMove_work u _ _ _).lasts.trans (.of_same rfl)

theorem gateArrival_lasts (tag dest : Byte) (x : GateFields) : Lasts u (gateArrival tag dest x u) := by
  unfold gateArrival
  split
  · exact .of_same rfl
  · split
    · exact .of_same rfl
    · split <;> exact .of_same rfl

theorem plainArrival_lasts (tag dest : Byte) (data : List Byte) : Lasts u (plainArrival tag dest data u) := by
  unfold plainArrival
  split <;> exact .of_same rfl

/-- Neither OPEN_BILL nor a request that clears notices. -/
def lasting : Instr → Bool
  | .openBill _ _ | .nextNotice _ | .clearNotices _ _ => false
  | _ => true

/-- Every other request clears no flag and keeps the records that are not OPEN. -/
theorem carriedOut_lasts (c : Instr) (other : lasting c = true) : Lasts u (carriedOut c u) := by
  cases c with
  | openBill | nextNotice | clearNotices => cases other
  | move t d m => exact relayTaken_lasts u (moveArrival_lasts u t d m)
  | gate t d x => exact relayTaken_lasts u (gateArrival_lasts u t d x)
  | plain t d data => exact relayTaken_lasts u (plainArrival_lasts u t d data)
  | run t => exact repliedActs_lasts u (runRequest_lasts u)
  | halt t => exact repliedActs_lasts u (haltRequest_work u).lasts
  | resume t => exact repliedActs_lasts u (resumeRequest_lasts u)
  | setConsoleLevel t l => exact replied_lasts u (setConsoleLevel_lasts u l)
  | loadStation t a p k n c => exact replied_lasts u (loadStation_lasts u a p k n c)
  | loadZone t z => exact replied_lasts u (loadZone_lasts u z)
  | setZoneLimit t l => exact replied_lasts u (setZoneLimit_lasts u l)
  | loadHead t h => exact replied_lasts u (loadHead_lasts u h)
  | setTiming t a b c d => exact replied_lasts u (setTiming_lasts u a b c d)
  | setLimits t n c d => exact replied_lasts u (setLimits_lasts u n c d)
  | readStation t a => exact replied_lasts u (.of_same (congrArg flagsAndBills (readStation_state u a)))
  | readZone t i => exact replied_lasts u (.of_same (congrArg flagsAndBills (readZone_state u i)))
  | queryZone t i l => exact replied_lasts u (.of_same (congrArg flagsAndBills (queryZone_state u i l)))
  | readHead t i => exact replied_lasts u (.of_same (congrArg flagsAndBills (readHead_state u i)))
  | setFreeboard t h o => exact repliedActs_lasts u (setFreeboard_lasts u h o)
  | sampleNow t => exact repliedActs_lasts u (sampleNow_work u).lasts
  | ackTrip t i => exact repliedActs_lasts u (ackTrip_work u i).lasts
  | appendStep t f => exact repliedActs_lasts u (appendStep_work u f).lasts
  | cancelStep t n => exact repliedActs_lasts u (cancelStep_work u n).lasts
  | endStep t n => exact repliedActs_lasts u (endStep_work u n).lasts
  | purgeSteps t => exact repliedActs_lasts u (purgeSteps_lasts u)
  | readStep t n => exact replied_lasts u (.of_same (congrArg flagsAndBills (readStep_state u n)))
  | readPlan t i => exact replied_lasts u (.of_same (congrArg flagsAndBills (readPlan_state u i)))
  | trimPour t f => exact repliedActs_lasts u (trimPour_work u f).lasts
  | closeBill t => exact replied_lasts u (closeBill_lasts u)
  | readBillOpen t n => exact replied_lasts u (readBillOpen_work u n).lasts
  | readBillNext t => exact replied_lasts u (readBillNext_lasts u)
  | readBillEnd t => exact repliedActs_lasts u (readBillEnd_work u).lasts
  | issueBill t n => exact replied_lasts u (issueBill_lasts u n)
  | setNoticeMask t n => exact replied_lasts u (setNoticeMask_lasts u n)
  | _ => exact .of_same rfl

theorem carriedOut_flags (c : Instr) (keeps : clearsNotices c = false) : FlagsStay u (carriedOut c u) := by
  cases c with
  | nextNotice | clearNotices => cases keeps
  | openBill t n =>
    intro k set
    show (openBill n u).state.notices.flags[k] = true
    rwa [openBill_notices]
  | _ => exact (carriedOut_lasts u _ rfl).flags

theorem carriedOut_closedBills (c : Instr) : ClosedBillsStay u (carriedOut c u) := by
  cases c with
  | openBill t n => exact openBill_closedBills n
  | nextNotice t => exact (closedBillsKept_of_same (nextNotice_bills u)).stay
  | clearNotices t n => exact (closedBillsKept_of_same (clearNotices_bills u n)).stay
  | _ => exact (carriedOut_lasts u _ rfl).bills.stay

theorem takeFrame_closedBills (f : Frame) : ClosedBillsStay u (takeFrame f u) := by
  unfold takeFrame
  split
  · exact (closedBillsKept_of_same rfl).stay
  · exact (closedBillsKept_of_same rfl).stay
  · exact carriedOut_closedBills u _

end

/-! ## Events that are no request -/

section
variable (s : State)

theorem discard_lasts (n : Word16) : Lasts s (discard n s) := by
  unfold discard
  split
  · exact .refl s
  · exact (BlockWork.notice _ _ _).lasts.after rfl

theorem receiveDamaged_lasts : Lasts s (receiveDamaged s) := by
  rw [receiveDamaged_eq]
  split
  · exact .refl s
  · split
    · exact .of_same rfl
    · exact (BlockWork.notice _ _ _).lasts.after rfl

theorem dropField_lasts : Lasts s (dropField s) := by
  unfold dropField
  split <;> exact .of_same rfl

theorem startUpstream_lasts : Lasts s (startUpstream s) := by
  unfold startUpstream
  split
  · exact .refl s
  · split <;> exact .of_same rfl

theorem takeField_lasts (f : Frame) : Lasts s (takeField f s) := by
  unfold takeField
  split
  · exact .refl s
  · dsimp only
    split
    · exact (matchAnswer_work _ f).lasts.after rfl
    · exact .of_same rfl

end

/-! ## Every command -/

/-- What a command does to the flags and the bills: work that clears and changes nothing of what stays, power-on, a
restart, or the taking of a frame. -/
inductive EventWork (s : State) : Instr → State → Prop
  | lasts {c : Instr} {t : State} : Lasts s t → EventWork s c t
  | powersUp (clk baud : Bool) : EventWork s (.powerOn clk baud) (powerUp clk baud s)
  | restarts {c : Instr} {t : State} : clearsNotices c = true → t.bills = (restartAll s).bills → EventWork s c t
  | takes (c : Instr) : EventWork s c (receive (carriedOut c) s)
  | takesFrame (f : Frame) (w : Word16) : EventWork s (.supervisorFrame f w) (receive (takeFrame f) s)

open EventWork

theorem endUpstream_eventWork (s : State) : EventWork s .upstreamFrameSent (endUpstream s) := by
  unfold endUpstream
  split
  · dsimp only
    split
    · exact restarts rfl rfl
    · exact lasts (.of_same rfl)
  · exact lasts (.refl s)

theorem exec_eventWork {c : Instr} {s t : State} (h : exec c s = .next t) : EventWork s c t := by
  cases c with
  | powerOn clk baud => cases h; exact powersUp clk baud
  | restartInput =>
    cases h
    split
    · exact lasts (.refl s)
    · exact restarts rfl rfl
  | restartInputRelease | maintenanceKeyInactive | maintenanceKeyActive | clockMinute =>
    cases h; exact lasts (.of_same rfl)
  | supervisorFrame f w =>
    cases h
    split
    · exact lasts (discard_lasts s 2)
    · split
      · exact takesFrame f w
      · exact lasts (receiveDamaged_lasts s)
  | supervisorFrameLengthDiscard => cases h; exact lasts (discard_lasts s 2)
  | supervisorFrameTimeLimit =>
    cases h
    split
    · exact lasts (.refl s)
    · exact lasts (discard_lasts s 3)
  | upstreamFrameStart => cases h; exact lasts (startUpstream_lasts s)
  | upstreamFrameSent => cases h; exact endUpstream_eventWork s
  | plain tag dest data =>
    cases h
    split
    · exact takes (.plain tag dest data)
    · exact lasts (discard_lasts s 2)
  | fieldFrameReceived f w =>
    cases h
    split
    · exact lasts (takeField_lasts s f)
    · exact lasts (dropField_lasts s)
  | fieldFrameLengthDiscard | fieldCheckWordMismatch => cases h; exact lasts (dropField_lasts s)
  | fieldFrameTimeLimit => cases h; exact lasts (.of_same rfl)
  | fieldFrameSent => cases h; exact lasts (fieldFrameEnd_work s).lasts
  | replyTimeout => cases h; exact lasts (replyTimerEnd_work s).lasts
  | positionTimerExpiry =>
    cases h
    split
    · exact lasts (.refl s)
    · exact lasts (((positionPolls_work _).trans (arbitrate_work _)).lasts.after rfl)
  | scaleTimerExpiry =>
    cases h
    split
    · exact lasts (.refl s)
    · exact lasts (((scalePolls_work _).trans (arbitrate_work _)).lasts.after rfl)
  | cycleTimerExpiry =>
    cases h
    split
    · exact lasts (.refl s)
    · exact lasts ((cycleExpiry_work s).trans (arbitrate_work _)).lasts
  | startByteReceived line =>
    cases h
    cases line with
    | supervisor => dsimp only; split <;> exact lasts (.of_same rfl)
    | field => dsimp only; split <;> exact lasts (.of_same rfl)
  | move a b m => cases h; exact takes (.move a b m)
  | gate a b g => cases h; exact takes (.gate a b g)
  | _ => rw [exec_request s rfl rfl] at h; cases h; exact takes _

theorem EventWork.flags {c : Instr} {s t : State} (work : EventWork s c t) (keeps : clearsNotices c = false) :
    FlagsStay s t := by
  cases work with
  | lasts work => exact work.flags
  | powersUp | takesFrame => cases keeps
  | restarts clears => exact absurd (clears.symm.trans keeps) (by decide)
  | takes =>
    have after : ∀ {s t u}, flagsAndBills t = flagsAndBills s → FlagsStay t u → FlagsStay s u :=
      fun same stay n set => stay n ((Lasts.of_same same).flags n set)
    exact receive_follows Lasts.flags after (fun u => carriedOut_flags u c keeps) s

theorem EventWork.closedBills {c : Instr} {s t : State} (work : EventWork s c t)
    (powered : ∀ x y, c ≠ .powerOn x y) : ClosedBillsStay s t := by
  have kept : ∀ {s t}, Lasts s t → ClosedBillsStay s t := fun work => work.bills.stay
  have after : ∀ {s t u}, flagsAndBills t = flagsAndBills s → ClosedBillsStay t u → ClosedBillsStay s u :=
    fun same stay i b record => by
      obtain ⟨_, bills⟩ := Prod.mk.inj same
      exact stay i b (bills ▸ record)
  cases work with
  | lasts work => exact kept work
  | powersUp clk baud => exact absurd rfl (powered clk baud)
  | restarts _ bills =>
    intro i b record left
    rw [bills]
    exact (restartAll_closedBills s).stay i b record left
  | takes => exact receive_follows kept after (fun u => carriedOut_closedBills u c) s
  | takesFrame f => exact receive_follows kept after (fun u => takeFrame_closedBills u f) s

/-- Settles O56: by what a command does to the flags and the bills. -/
theorem flagsAndClosedBillsStay : Obligations.FlagsAndClosedBillsStay := by
  unfold Obligations.FlagsAndClosedBillsStay
  exact ⟨fun c s t n keeps run => (exec_eventWork run).flags keeps n,
    fun c s t i b powered run => (exec_eventWork run).closedBills powered i b⟩

end Sys2Proof.Machine
end

section
/-! Collecting and clearing notices, and the notice mask (R186, R187). -/

namespace Sys2Proof.Machine

variable {s : State} {names : Word16}

/-! ## NEXT_NOTICE (R186) -/

/-- No flag is visible where every set flag is masked. -/
theorem firstVisible_none {x : Notices} (masked : ∀ i : Fin 13, x.flags[i] = true → x.mask[i] = true) :
    firstVisible x = none :=
  List.find?_eq_none.mpr fun i _ visible => by
    obtain ⟨set, unmasked⟩ := Bool.and_eq_true_iff.mp visible
    rw [masked i set] at unmasked
    cases unmasked

/-- The visible flag below which every set flag is masked is the first. -/
theorem firstVisible_some {x : Notices} {n : Fin 13} (set : x.flags[n] = true) (unmasked : x.mask[n] = false)
    (least : ∀ k : Fin 13, k < n → x.flags[k] = true → x.mask[k] = true) : firstVisible x = some n :=
  finRange_find?_least (by rw [set, unmasked]; rfl) fun k below visible => by
    obtain ⟨flag, shown⟩ := Bool.and_eq_true_iff.mp visible
    rw [least k below flag] at shown
    cases shown

theorem nextNotice_none (h : firstVisible s.notices = none) : nextNotice s = Reply.refuse .none s := by
  rw [nextNotice, h]
  rfl

theorem nextNotice_some {n : Fin 13} (h : firstVisible s.notices = some n) :
    nextNotice s = Reply.ok (byteOfNat (n.val + 1) :: bytes16 s.notices.subjects[n])
      (s.withNotices { s.notices with flags := s.notices.flags.set n.val false }) := by
  rw [nextNotice, h]

/-! ## CLEAR_NOTICES and SET_NOTICE_MASK (R187) -/

/-- The set names a number outside 1..13. -/
def namesOutside (names : Word16) : Prop :=
  names.getLsbD 0 = true ∨ names.getLsbD 14 = true ∨ names.getLsbD 15 = true

theorem noticeSetOk_iff : noticeSetOk names = true ↔ ¬ namesOutside names := by
  simp [noticeSetOk, namesOutside, and_assoc]

/-- The flags without those a set names. -/
def flagsWithout (names : Word16) (flags : Vector Bool 13) : Vector Bool 13 :=
  Vector.ofFn fun i : Fin 13 => flags[i] && !noticeNamed names i

/-- The mask a set stands for. -/
def maskNamed (names : Word16) : Vector Bool 13 := Vector.ofFn (noticeNamed names)

theorem flagsWithout_get (flags : Vector Bool 13) (n : Fin 13) :
    (flagsWithout names flags)[n] = (flags[n] && !names.getLsbD (n.val + 1)) :=
  Vector.getElem_ofFn ..

theorem maskNamed_get (n : Fin 13) : (maskNamed names)[n] = names.getLsbD (n.val + 1) :=
  Vector.getElem_ofFn ..

theorem clearNotices_outside (h : namesOutside names) : clearNotices names s = Reply.refuse .badValue s :=
  if_neg (mt noticeSetOk_iff.mp (not_not_intro h))

theorem clearNotices_named (h : ¬ namesOutside names) : clearNotices names s =
    Reply.ok [] (s.withNotices { s.notices with flags := flagsWithout names s.notices.flags }) :=
  if_pos (noticeSetOk_iff.mpr h)

theorem setNoticeMask_outside (h : namesOutside names) : setNoticeMask names s = Reply.refuse .badValue s :=
  if_neg (mt noticeSetOk_iff.mp (not_not_intro h))

theorem setNoticeMask_named (h : ¬ namesOutside names) : setNoticeMask names s =
    Reply.ok [] (s.withNotices { s.notices with mask := maskNamed names }) :=
  if_pos (noticeSetOk_iff.mpr h)

/-- Settles O55: NEXT_NOTICE by the first visible flag, the two others by the test of the set. -/
theorem noticeRequests : Obligations.NoticeRequests := by
  unfold Obligations.NoticeRequests
  refine ⟨fun tag s taken => ⟨fun masked => ?_, fun n set unmasked least => ?_⟩,
    fun tag names s taken => ⟨fun outside => ⟨?_, ?_⟩, fun inside => ⟨?_, ?_⟩⟩⟩
  · exact exec_replied_refused taken rfl (nextNotice_none (s := heard s) (firstVisible_none masked))
  · exact exec_replied_ok taken rfl (nextNotice_some (s := heard s) (firstVisible_some set unmasked least))
  · exact exec_replied_refused taken rfl (clearNotices_outside outside)
  · exact exec_replied_refused taken rfl (setNoticeMask_outside outside)
  · exact ⟨flagsWithout names s.notices.flags,
      exec_replied_ok taken rfl (clearNotices_named (s := heard s) inside), flagsWithout_get s.notices.flags⟩
  · exact ⟨maskNamed names, exec_replied_ok taken rfl (setNoticeMask_named (s := heard s) inside), maskNamed_get⟩

end Sys2Proof.Machine
end

section
/-! The fit checks of a management request (R191), layout by layout (R194 to R199). -/

namespace Sys2Proof.Machine

/-! ## One layout -/

/-- A reader of one layout: fields that fit give the request whose frame carries them, others give none. -/
def ReadsLayout (tag code : Byte) (read : List Byte → Option Instr) : Prop :=
  ∀ fields, (read fields).map frameOf =
    if requestFits code fields then some (some (supFrame 0 kindMgmt tag (code :: fields))) else none

/-- The requests whose layout has a yes/no byte, each as its byte 1: LOAD_STATION, LOAD_ZONE and LOAD_HEAD. -/
def yesNoCodes : List Byte := [0x10#8, 0x11, 0x13]

/-- The yes/no check of R191 alone. -/
def yesNoFits (code : Byte) (fields : List Byte) : Bool :=
  !decide (code ∈ yesNoCodes) || decide (byteAt fields 1 ≤ 1)

theorem requestFits_of_length {code : Byte} {fields : List Byte} {n : Nat} (len : requestLength code = some n) :
    requestFits code fields = (decide (fields.length = n) && yesNoFits code fields) := by
  rw [requestFits, len, yesNoFits, yesNoCodes, Bool.beq_eq_decide_eq]
  simp only [Option.some.injEq, eq_comm]

/-- A list of `n` bytes is written out byte by byte. -/
theorem exists_ofFn_of_length {fields : List Byte} {n : Nat} (h : fields.length = n) :
    ∃ g : Fin n → Byte, fields = List.ofFn g := by
  subst h
  exact ⟨fields.get, (List.ofFn_get fields).symm⟩

section
variable {tag code : Byte} {read : List Byte → Option Instr}

/-- A layout of `n` bytes: nothing is read at another length, and `n` bytes are read where the yes/no check passes. -/
theorem ReadsLayout.of_length (n : Nat) (len : requestLength code = some n)
    (other : ∀ fields, fields.length ≠ n → read fields = none)
    (exactly : ∀ g : Fin n → Byte, (read (List.ofFn g)).map frameOf =
      if yesNoFits code (List.ofFn g) then some (some (supFrame 0 kindMgmt tag (code :: List.ofFn g))) else none) :
    ReadsLayout tag code read := by
  intro fields
  rw [requestFits_of_length len]
  by_cases h : fields.length = n
  · rw [decide_eq_true h, Bool.true_and]
    obtain ⟨g, rfl⟩ := exists_ofFn_of_length h
    exact exactly g
  · rw [other fields h, decide_eq_false h]
    rfl

/-- A layout of `n` bytes without a yes/no byte. -/
theorem ReadsLayout.of_frame (n : Nat) (len : requestLength code = some n) (plain : code ∉ yesNoCodes)
    (other : ∀ fields, fields.length ≠ n → read fields = none)
    (exactly : ∀ g : Fin n → Byte,
      (read (List.ofFn g)).map frameOf = some (some (supFrame 0 kindMgmt tag (code :: List.ofFn g)))) :
    ReadsLayout tag code read :=
  .of_length n len other fun g => by rw [exactly g, yesNoFits, decide_eq_false plain]; rfl

/-- A byte is read as yes or no exactly where it is at most 1, and is written back as it was. -/
theorem yesNoOfByte_cases (b : Byte) :
    (¬ b.toNat ≤ 1 ∧ yesNoOfByte b = none) ∨ (b.toNat ≤ 1 ∧ ∃ x, b = yesNo x) := by
  revert b; decide

/-- A layout of `n + 2` bytes of which byte 1 is a yes/no byte. -/
theorem ReadsLayout.of_yesNo (n : Nat) (len : requestLength code = some (n + 2)) (marked : code ∈ yesNoCodes)
    (other : ∀ fields, fields.length ≠ n + 2 → read fields = none)
    (outside : ∀ g : Fin (n + 2) → Byte, yesNoOfByte (g 1) = none → read (List.ofFn g) = none)
    (exactly : ∀ (g : Fin (n + 2) → Byte) x, g 1 = yesNo x →
      (read (List.ofFn g)).map frameOf = some (some (supFrame 0 kindMgmt tag (code :: List.ofFn g)))) :
    ReadsLayout tag code read := by
  refine .of_length (n + 2) len other fun g => ?_
  have fits : yesNoFits code (List.ofFn g) = decide ((g 1).toNat ≤ 1) := by
    rw [yesNoFits, decide_eq_true marked, List.ofFn_succ, List.ofFn_succ]
    rfl
  rw [fits]
  rcases yesNoOfByte_cases (g 1) with ⟨above, unread⟩ | ⟨below, x, byte⟩
  · rw [decide_eq_false above, outside g unread]
    rfl
  · rw [decide_eq_true below, exactly g x byte]
    rfl

/-! ## Layouts that several requests share -/

theorem noFields_layout {c : Instr} (len : requestLength code = some 0) (plain : code ∉ yesNoCodes)
    (frame : frameOf c = some (supFrame 0 kindMgmt tag [code])) : ReadsLayout tag code (noFields c) :=
  .of_frame 0 len plain (fun fields h => by unfold noFields; split; exacts [absurd rfl h, rfl])
    fun g => congrArg some frame

theorem oneByte_layout {c : Byte → Instr} (len : requestLength code = some 1) (plain : code ∉ yesNoCodes)
    (frame : ∀ x, frameOf (c x) = some (supFrame 0 kindMgmt tag [code, x])) : ReadsLayout tag code (oneByte c) :=
  .of_frame 1 len plain (fun fields h => by unfold oneByte; split; exacts [absurd rfl h, rfl])
    fun g => congrArg some (frame (g 0))

theorem twoBytes_layout {c : Byte → Byte → Instr} (len : requestLength code = some 2)
    (plain : code ∉ yesNoCodes)
    (frame : ∀ x y, frameOf (c x y) = some (supFrame 0 kindMgmt tag [code, x, y])) :
    ReadsLayout tag code (twoBytes c) :=
  .of_frame 2 len plain (fun fields h => by unfold twoBytes; split; exacts [absurd rfl h, rfl])
    fun g => congrArg some (frame (g 0) (g 1))

theorem oneWord_layout {c : Word16 → Instr} (len : requestLength code = some 2) (plain : code ∉ yesNoCodes)
    (frame : ∀ w, frameOf (c w) = some (supFrame 0 kindMgmt tag (code :: bytes16 w))) :
    ReadsLayout tag code (oneWord c) :=
  .of_frame 2 len plain (fun fields h => by unfold oneWord; split; exacts [absurd rfl h, rfl]) fun g => by
    show some (frameOf (c (word16 (g 0) (g 1)))) = _
    rw [frame, bytes16_word16]
    rfl

end

/-! ## Layouts of one request -/

section
variable (tag : Byte)

theorem readSetClock_layout : ReadsLayout tag 0x07 (readSetClock tag) :=
  .of_frame 4 rfl (by decide) (fun fields h => by unfold readSetClock; split; exacts [absurd rfl h, rfl])
    fun g => by simp [List.ofFn_succ, readSetClock, frameOf, bytes32_word32]

theorem readSetTiming_layout : ReadsLayout tag 0x14 (readSetTiming tag) :=
  .of_frame 8 rfl (by decide) (fun fields h => by unfold readSetTiming; split; exacts [absurd rfl h, rfl])
    fun g => by simp [List.ofFn_succ, readSetTiming, frameOf, bytes16_word16]

theorem readSetLimits_layout : ReadsLayout tag 0x15 (readSetLimits tag) :=
  .of_frame 4 rfl (by decide) (fun fields h => by unfold readSetLimits; split; exacts [absurd rfl h, rfl])
    fun g => by simp [List.ofFn_succ, readSetLimits, frameOf, bytes16_word16]

theorem readSetFreeboard_layout : ReadsLayout tag 0x20 (readSetFreeboard tag) :=
  .of_frame 3 rfl (by decide) (fun fields h => by unfold readSetFreeboard; split; exacts [absurd rfl h, rfl])
    fun g => by simp [List.ofFn_succ, readSetFreeboard, frameOf, bytes16_word16]

theorem readAppendStep_layout : ReadsLayout tag 0x30 (readAppendStep tag) :=
  .of_frame 12 rfl (by decide) (fun fields h => by unfold readAppendStep; split; exacts [absurd rfl h, rfl])
    fun g => by simp [List.ofFn_succ, readAppendStep, frameOf, StepFields.bytes, bytes16_word16]

theorem readTrimPour_layout : ReadsLayout tag 0x36 (readTrimPour tag) :=
  .of_frame 6 rfl (by decide) (fun fields h => by unfold readTrimPour; split; exacts [absurd rfl h, rfl])
    fun g => by simp [List.ofFn_succ, readTrimPour, frameOf, TrimFields.bytes, bytes16_word16]

theorem readLoadStation_layout : ReadsLayout tag 0x10 (readLoadStation tag) :=
  .of_yesNo 3 rfl (by decide) (fun fields h => by unfold readLoadStation; split; exacts [absurd rfl h, rfl])
    (fun g unread => congrArg (Option.map _) unread)
    fun g x byte => by simp [List.ofFn_succ, readLoadStation, frameOf, byte]

theorem readLoadZone_layout : ReadsLayout tag 0x11 (readLoadZone tag) :=
  .of_yesNo 25 rfl (by decide) (fun fields h => by unfold readLoadZone; split; exacts [absurd rfl h, rfl])
    (fun g unread => congrArg (Option.map _) unread)
    fun g x byte => by
      simp [List.ofFn_succ, readLoadZone, frameOf, ZoneFields.bytes, byte, bytes16_word16, bytes32_word32]

theorem readLoadHead_layout : ReadsLayout tag 0x13 (readLoadHead tag) :=
  .of_yesNo 12 rfl (by decide) (fun fields h => by unfold readLoadHead; split; exacts [absurd rfl h, rfl])
    (fun g unread => congrArg (Option.map _) unread)
    fun g x byte => by simp [List.ofFn_succ, readLoadHead, frameOf, HeadFields.bytes, byte, bytes16_word16]

end

/-! ## The catalogue -/

section
variable {tag code : Byte}

/-- A code of the catalogue is read by its layout. -/
theorem readRequest_layout_of_known {n : Nat} (known : requestLength code = some n) :
    ReadsLayout tag code (readRequest tag code) := by
  unfold requestLength at known
  rcases ite_eq_iff.mp known with ⟨h, -⟩ | ⟨-, known⟩
  · simp only [List.mem_cons, List.not_mem_nil, or_false] at h
    rcases h with rfl | rfl | rfl | rfl | rfl | rfl | rfl | rfl | rfl | rfl | rfl | rfl
    all_goals exact noFields_layout rfl (by decide) rfl
  rcases ite_eq_iff.mp known with ⟨h, -⟩ | ⟨-, known⟩
  · simp only [List.mem_cons, List.not_mem_nil, or_false] at h
    rcases h with rfl | rfl | rfl | rfl | rfl | rfl | rfl
    all_goals exact oneByte_layout rfl (by decide) fun _ => rfl
  rcases ite_eq_iff.mp known with ⟨h, -⟩ | ⟨-, known⟩
  · simp only [List.mem_cons, List.not_mem_nil, or_false] at h
    rcases h with rfl | rfl | rfl | rfl | rfl | rfl | rfl | rfl | rfl
    · exact twoBytes_layout rfl (by decide) fun _ _ => rfl
    all_goals exact oneWord_layout rfl (by decide) fun _ => rfl
  rcases ite_eq_iff.mp known with ⟨h, -⟩ | ⟨-, known⟩
  · exact h ▸ readSetFreeboard_layout tag
  rcases ite_eq_iff.mp known with ⟨h, -⟩ | ⟨-, known⟩
  · simp only [List.mem_cons, List.not_mem_nil, or_false] at h
    rcases h with rfl | rfl
    exacts [readSetClock_layout tag, readSetLimits_layout tag]
  rcases ite_eq_iff.mp known with ⟨h, -⟩ | ⟨-, known⟩
  · exact h ▸ readLoadStation_layout tag
  rcases ite_eq_iff.mp known with ⟨h, -⟩ | ⟨-, known⟩
  · exact h ▸ readTrimPour_layout tag
  rcases ite_eq_iff.mp known with ⟨h, -⟩ | ⟨-, known⟩
  · exact h ▸ readSetTiming_layout tag
  rcases ite_eq_iff.mp known with ⟨h, -⟩ | ⟨-, known⟩
  · exact h ▸ readAppendStep_layout tag
  rcases ite_eq_iff.mp known with ⟨h, -⟩ | ⟨-, known⟩
  · exact h ▸ readLoadHead_layout tag
  rcases ite_eq_iff.mp known with ⟨h, -⟩ | ⟨-, known⟩
  · exact h ▸ readLoadZone_layout tag
  cases known

/-- A code outside the catalogue is none of those `readRequest` reads. -/
theorem readRequest_of_unknown {fields : List Byte} (unknown : requestLength code = none) :
    readRequest tag code fields = none := by
  have outside : ∀ k, code.toNat = k → requestLength (BitVec.ofNat 8 k) = none := by
    rintro _ rfl
    rwa [BitVec.ofNat_toNat, BitVec.setWidth_eq]
  unfold readRequest
  split
  case h_38 => rfl
  all_goals
    rename_i known
    exact absurd (outside _ known) (by decide)

/-- The checks of R191 and the reading of a request agree. -/
theorem readRequest_layout : ReadsLayout tag code (readRequest tag code) := by
  cases known : requestLength code with
  | none =>
    intro fields
    rw [readRequest_of_unknown known, requestFits, known]
    rfl
  | some n => exact readRequest_layout_of_known known

/-- A management frame of source 62 to station 0 whose payload is no request is answered BAD_VALUE. -/
theorem routeFrame_badValue {fields : List Byte} (unread : readRequest tag code fields = none) :
    routeFrame (supFrame 0 kindMgmt tag (code :: fields)) = .badValue := by
  simp [routeFrame, routePayload, supFrame, unread]

end

/-- A taken frame that R191 refuses is answered by its REPLY alone. -/
theorem exec_unfit {f : Frame} {s : State} (short : f.wf = true) (taken : Taken s)
    (route : routeFrame f = .badValue) :
    exec (.supervisorFrame f f.check) s = .next (replyTo f.tag .badValue [] s) := by
  rw [exec_supervisorFrame_good s short, receive_taken taken, takeFrame, route]
  rfl

/-- Settles O8: `readRequest` reads the fields that fit, and the frame of what it reads is the frame it read from. -/
theorem requestFitChecksOfR191 : Obligations.RequestFitChecksOfR191 := by
  unfold Obligations.RequestFitChecksOfR191
  intro tag code fields s len taken
  have read := readRequest_layout (tag := tag) (code := code) fields
  refine ⟨fun unfit => ?_, fun fit => ?_⟩
  · rw [unfit] at read
    have short : (supFrame 0 kindMgmt tag (code :: fields)).wf = true := decide_eq_true (Nat.succ_le_succ len)
    exact exec_unfit short taken (routeFrame_badValue (Option.map_eq_none_iff.mp read))
  · rw [fit] at read
    obtain ⟨c, _, frame⟩ := Option.map_eq_some_iff.mp read
    exact ⟨c, frame⟩

end Sys2Proof.Machine
end

section
/-! The queue's own step, and the commands' end: each answers a next state and leaves the queue and the counter of free
choices, which are no block's state (logs 5, 7 and 27). -/

namespace Sys2Proof.Machine

/-! ## A step takes the front of the queue -/

theorem step_of_pending {s : State} {c : Instr} {rest : List Instr} (front : s.pending = c :: rest) :
    step s = exec c (s.withPending rest) := by
  rw [step, front]

theorem step_of_empty {s : State} (empty : s.pending = []) : step s = idle s := by
  rw [step, empty]

/-- Settles O1: the queue's rest is put in place of the whole queue. -/
theorem stepTakesFrontCommand : Obligations.StepTakesFrontCommand := by
  unfold Obligations.StepTakesFrontCommand
  intro c q s
  have front : (s.withPending (c :: q)).pending = c :: q := rfl
  have rest : (s.withPending (c :: q)).withPending q = s.withPending q := rfl
  rw [step_of_pending front, rest]

/-! ## The fields that are no block's -/

/-- The queue of commands and the counter of free choices. -/
def ownFields (s : State) : List Instr × Nat := (s.pending, s.freeCount)

theorem keepsPlan_ownFields : KeepsPlan ownFields := by constructor <;> intros <;> rfl

theorem BlockWork.ownFields_eq {s t : State} (work : BlockWork s t) : ownFields t = ownFields s :=
  Prod.ext work.sameOuter.pending work.sameOuter.freeCount

theorem restartAll_ownFields (s : State) : ownFields (restartAll s) = ownFields s := rfl

theorem powerUp_ownFields (clk baud : Bool) (s : State) : ownFields (powerUp clk baud s) = ownFields s := rfl

/-! ## The requests' own work -/

section
variable (s : State)

theorem runRequest_ownFields : ownFields (runRequest s).state = ownFields s := by
  unfold runRequest
  split
  · rfl
  · rfl
  · split
    · rfl
    · split
      · rfl
      · rw [Reply.ok_state, enterRun_eq]
        exact activationTest_keeps keepsPlan_ownFields _

theorem resumeRequest_ownFields : ownFields (resumeRequest s).state = ownFields s := by
  unfold resumeRequest
  split
  · rfl
  · rfl
  · split
    · rfl
    · rw [Reply.ok_state, leaveHalt_eq]
      exact activationTest_keeps keepsPlan_ownFields _

theorem setConsoleLevel_ownFields (l : Byte) : ownFields (setConsoleLevel l s).state = ownFields s := by
  unfold setConsoleLevel
  split
  · rfl
  · split <;> rfl

theorem loadStation_ownFields (a : Byte) (p : Bool) (k u c : Byte) :
    ownFields (loadStation a p k u c s).state = ownFields s :=
  inConfig_reads s fun g written => by
    unfold writeStation at written
    split at written <;> cases written
    rfl

theorem loadZone_ownFields (z : ZoneFields) : ownFields (loadZone z s).state = ownFields s :=
  inConfig_reads s fun g written => by
    unfold writeZone at written
    split at written
    · split at written <;> cases written
      rfl
    · cases written

theorem setZoneLimit_ownFields (l : Byte) : ownFields (setZoneLimit l s).state = ownFields s :=
  inConfig_reads s fun g written => by
    unfold writeLimit at written
    split at written <;> cases written
    rfl

theorem loadHead_ownFields (h : HeadFields) : ownFields (loadHead h s).state = ownFields s :=
  inConfig_reads s fun g written => by
    unfold writeHead at written
    split at written <;> cases written
    rfl

theorem setTiming_ownFields (a b c d : Word16) : ownFields (setTiming a b c d s).state = ownFields s :=
  inConfig_reads s fun g written => by
    unfold writeTiming at written
    split at written <;> cases written
    rfl

theorem setLimits_ownFields (n c : Byte) (d : Word16) : ownFields (setLimits n c d s).state = ownFields s :=
  inConfig_reads s fun g written => by
    unfold writeLimits at written
    split at written
    · split at written <;> cases written
      rfl
    · cases written

theorem setFreeboard_ownFields (h : Byte) (o : Word16) : ownFields (setFreeboard h o s).state = ownFields s := by
  unfold setFreeboard
  split
  · rename_i x _
    split
    · have tested : ∀ u sp, BlockWork u (if settledOver u sp x then testOverreach sp u else u) := fun u sp => by
        split
        · exact testOverreach_work u sp
        · exact .refl u
      exact ((BlockWork.foldl tested _ _).trans (tcuKnown_work _ _)).ownFields_eq
    · rfl
  · rfl

end

/-! ## Taking a frame -/

theorem receive_ownFields {taken : State → State} (s : State) (h : ∀ u, ownFields (taken u) = ownFields u) :
    ownFields (receive taken s) = ownFields s := by
  rw [receive_eq]
  split
  · rfl
  · split
    · rfl
    · split
      · rfl
      · exact h (heard s)

section
variable (u : State)

theorem replied_ownFields {tag : Byte} {op : State → Reply} (h : ownFields (op u).state = ownFields u) :
    ownFields (replied tag op u) = ownFields u := h

theorem repliedActs_ownFields {tag : Byte} {op : State → Reply} (h : ownFields (op u).state = ownFields u) :
    ownFields (repliedActs tag op u) = ownFields u :=
  (arbitrate_work _).ownFields_eq.trans (replied_ownFields u h)

theorem relayTaken_ownFields {tag dest kind : Byte} {arrival : State → State}
    (h : ownFields (arrival u) = ownFields u) : ownFields (relayTaken tag dest kind arrival u) = ownFields u := by
  unfold relayTaken
  split
  · exact (arbitrate_work _).ownFields_eq.trans h
  · rfl

theorem moveArrival_ownFields (tag dest : Byte) (m : MoveFields) :
    ownFields (moveArrival tag dest m u) = ownFields u := by
  unfold moveArrival
  split
  · rfl
  · split
    · rfl
    · exact (acceptMove_work u _ _ _).ownFields_eq

theorem gateArrival_ownFields (tag dest : Byte) (x : GateFields) :
    ownFields (gateArrival tag dest x u) = ownFields u := by
  unfold gateArrival
  split
  · rfl
  · split
    · rfl
    · split <;> rfl

theorem plainArrival_ownFields (tag dest : Byte) (data : List Byte) :
    ownFields (plainArrival tag dest data u) = ownFields u := by
  unfold plainArrival
  split <;> rfl

/-- No request a taken frame carries writes the queue or the counter. -/
theorem carriedOut_ownFields (c : Instr) : ownFields (carriedOut c u) = ownFields u := by
  have plan := keepsPlan_ownFields
  cases c with
  | move t d m => exact relayTaken_ownFields u (moveArrival_ownFields u t d m)
  | gate t d x => exact relayTaken_ownFields u (gateArrival_ownFields u t d x)
  | plain t d data => exact relayTaken_ownFields u (plainArrival_ownFields u t d data)
  | run t => exact repliedActs_ownFields u (runRequest_ownFields u)
  | halt t => exact repliedActs_ownFields u (haltRequest_work u).ownFields_eq
  | resume t => exact repliedActs_ownFields u (resumeRequest_ownFields u)
  | setConsoleLevel t l => exact replied_ownFields u (setConsoleLevel_ownFields u l)
  | loadStation t a p k n c => exact replied_ownFields u (loadStation_ownFields u a p k n c)
  | loadZone t z => exact replied_ownFields u (loadZone_ownFields u z)
  | setZoneLimit t l => exact replied_ownFields u (setZoneLimit_ownFields u l)
  | loadHead t h => exact replied_ownFields u (loadHead_ownFields u h)
  | setTiming t a b c d => exact replied_ownFields u (setTiming_ownFields u a b c d)
  | setLimits t n c d => exact replied_ownFields u (setLimits_ownFields u n c d)
  | readStation t a => exact replied_ownFields u (congrArg ownFields (readStation_state u a))
  | readZone t i => exact replied_ownFields u (congrArg ownFields (readZone_state u i))
  | queryZone t i l => exact replied_ownFields u (congrArg ownFields (queryZone_state u i l))
  | readHead t i => exact replied_ownFields u (congrArg ownFields (readHead_state u i))
  | setFreeboard t h o => exact repliedActs_ownFields u (setFreeboard_ownFields u h o)
  | sampleNow t => exact repliedActs_ownFields u (sampleNow_work u).ownFields_eq
  | ackTrip t i => exact repliedActs_ownFields u (ackTrip_work u i).ownFields_eq
  | appendStep t f => exact repliedActs_ownFields u (appendStep_keeps plan u f)
  | cancelStep t n => exact repliedActs_ownFields u (cancelStep_keeps plan u n)
  | endStep t n => exact repliedActs_ownFields u (endStep_keeps plan u n)
  | purgeSteps t => exact repliedActs_ownFields u (purgeSteps_keeps plan u)
  | readStep t n => exact replied_ownFields u (congrArg ownFields (readStep_state u n))
  | readPlan t i => exact replied_ownFields u (congrArg ownFields (readPlan_state u i))
  | trimPour t f => exact repliedActs_ownFields u (trimPour_keeps plan u f)
  | openBill t n => exact replied_ownFields u (openBill_keeps plan u n)
  | closeBill t => exact replied_ownFields u (closeBill_keeps plan u)
  | readBillOpen t n => exact replied_ownFields u (readBillOpen_keeps plan u n)
  | readBillNext t => exact replied_ownFields u (readBillNext_keeps plan u)
  | readBillEnd t => exact repliedActs_ownFields u (readBillEnd_keeps plan u)
  | issueBill t n => exact replied_ownFields u (issueBill_keeps plan u n)
  | nextNotice t => exact replied_ownFields u (nextNotice_keeps plan u)
  | clearNotices t n => exact replied_ownFields u (clearNotices_keeps plan u n)
  | setNoticeMask t n => exact replied_ownFields u (setNoticeMask_keeps plan u n)
  | _ => rfl

theorem takeFrame_ownFields (f : Frame) : ownFields (takeFrame f u) = ownFields u := by
  unfold takeFrame
  split
  · rfl
  · rfl
  · exact carriedOut_ownFields u _

end

/-! ## Events that are no request -/

section
variable (s : State)

theorem discard_ownFields (n : Word16) : ownFields (discard n s) = ownFields s := by
  unfold discard
  split <;> rfl

theorem receiveDamaged_ownFields : ownFields (receiveDamaged s) = ownFields s := by
  rw [receiveDamaged_eq]
  split
  · rfl
  · split <;> rfl

theorem dropField_ownFields : ownFields (dropField s) = ownFields s := by
  unfold dropField
  split <;> rfl

theorem takeField_ownFields (f : Frame) : ownFields (takeField f s) = ownFields s := by
  unfold takeField
  split
  · rfl
  · dsimp only
    split
    · exact (matchAnswer_work _ f).ownFields_eq
    · rfl

theorem startUpstream_ownFields : ownFields (startUpstream s) = ownFields s := by
  unfold startUpstream
  split
  · rfl
  · split <;> rfl

theorem endUpstream_ownFields : ownFields (endUpstream s) = ownFields s := by
  unfold endUpstream
  split
  · dsimp only
    split
    · exact restartAll_ownFields _
    · rfl
  · rfl

end

/-! ## Every command and every step -/

/-- No command ends in a fault or a refusal: each arm of the dispatch answers a next state. -/
theorem exec_completes (c : Instr) (s : State) : ∃ t, exec c s = .next t := by
  cases c <;> exact ⟨_, rfl⟩

/-- A command leaves the queue and the counter as they are. -/
theorem exec_ownFields {c : Instr} {s t : State} (h : exec c s = .next t) : ownFields t = ownFields s := by
  have request : ∀ d : Instr, ownFields (receive (carriedOut d) s) = ownFields s :=
    fun d => receive_ownFields s fun u => carriedOut_ownFields u d
  cases c with
  | powerOn clk baud => cases h; exact powerUp_ownFields clk baud s
  | restartInput =>
    cases h
    split
    · rfl
    · exact restartAll_ownFields s
  | restartInputRelease | maintenanceKeyInactive | maintenanceKeyActive | clockMinute | fieldFrameTimeLimit =>
    cases h; rfl
  | supervisorFrame f w =>
    cases h
    split
    · exact discard_ownFields s 2
    · split
      · exact receive_ownFields s fun u => takeFrame_ownFields u f
      · exact receiveDamaged_ownFields s
  | supervisorFrameLengthDiscard => cases h; exact discard_ownFields s 2
  | supervisorFrameTimeLimit =>
    cases h
    split
    · rfl
    · exact discard_ownFields s 3
  | upstreamFrameStart => cases h; exact startUpstream_ownFields s
  | upstreamFrameSent => cases h; exact endUpstream_ownFields s
  | plain tag dest data =>
    cases h
    split
    · exact request (.plain tag dest data)
    · exact discard_ownFields s 2
  | fieldFrameReceived f w =>
    cases h
    split
    · exact takeField_ownFields s f
    · exact dropField_ownFields s
  | fieldFrameLengthDiscard | fieldCheckWordMismatch => cases h; exact dropField_ownFields s
  | fieldFrameSent => cases h; exact (fieldFrameEnd_work s).ownFields_eq
  | replyTimeout => cases h; exact (replyTimerEnd_work s).ownFields_eq
  | positionTimerExpiry =>
    cases h
    split
    · rfl
    · exact ((positionPolls_work _).trans (arbitrate_work _)).ownFields_eq
  | scaleTimerExpiry =>
    cases h
    split
    · rfl
    · exact ((scalePolls_work _).trans (arbitrate_work _)).ownFields_eq
  | cycleTimerExpiry =>
    cases h
    split
    · rfl
    · exact ((cycleExpiry_work s).trans (arbitrate_work _)).ownFields_eq
  | startByteReceived line =>
    cases h
    cases line with
    | supervisor => dsimp only; split <;> rfl
    | field => dsimp only; split <;> rfl
  | move a b m => cases h; exact request (.move a b m)
  | gate a b g => cases h; exact request (.gate a b g)
  | _ => rw [exec_request s rfl rfl] at h; cases h; exact request _

/-- On an empty queue the tick passes or a due expiry, which is a command, is taken. -/
theorem idle_completes (s : State) : ∃ t, idle s = .next t := by
  unfold idle
  split
  · exact ⟨tick s, rfl⟩
  · exact exec_completes _ s
  · exact exec_completes _ _

theorem step_completes (s : State) : ∃ t, step s = .next t := by
  cases queue : s.pending with
  | nil =>
    rw [step_of_empty queue]
    exact idle_completes s
  | cons c rest =>
    rw [step_of_pending queue]
    exact exec_completes c _

/-- Settles O3: each command answers a next state, its work writes blocks' fields alone, and a step is a command or
the tick. -/
theorem everyCommandCompletes : Obligations.EveryCommandCompletes := by
  unfold Obligations.EveryCommandCompletes
  refine ⟨fun c s => ?_, step_completes⟩
  obtain ⟨t, next⟩ := exec_completes c s
  obtain ⟨queue, counter⟩ := Prod.mk.inj (exec_ownFields next)
  exact ⟨t, next, queue, counter⟩

end Sys2Proof.Machine
end
